-- ==== Sys2Proof/Word.lean ====
section
/-! DEFINITION. The plainest words of the model: a byte, a one-byte tag, and the units in which the spec
counts (a tape position is held in hundredths of a millimetre, R8; time in microseconds, 00_scope). -/

namespace Sys2Proof

/-- One byte of host data, of a library record or of a Data Link frame. -/
abbrev Byte := BitVec 8

/-- The one-byte number the host gives a command (R165). -/
abbrev Tag := BitVec 8

end Sys2Proof
end

