-- ==== Sys2Proof/Syntax.lean ====
section
/-! DEFINITION. The commands and events of spec/opcode_table.json, one constructor of `Instr` per row, and the data they carry.
What only the physical world decides (what a head finds at a frame place, where the tape came to rest, whether a write
attempt succeeded) is an operand of the event that reports it (assumption log 2). -/

namespace Sys2Proof

/-! ## Data on tape -/

/-- A place on tape: the wrap and the longitudinal position in hundredths of a millimetre (R8). -/
structure Place where
  wrap : Nat
  lpos : Nat
deriving DecidableEq, Repr

/-- The kind of a record part (R3). -/
inductive PartKind where
  | compressed
  | stored
deriving DecidableEq, Repr

/-- A Record Part entry of a data set directory (R3): uncompressed length, stored length, kind, Begins and Ends. -/
structure Part where
  ulen : Nat
  slen : Nat
  kind : PartKind
  begins : Bool
  ends : Bool
deriving DecidableEq, Repr

/-- One entry of a data set directory (R3). -/
inductive Entry where
  | filemark
  | part (p : Part)
deriving DecidableEq, Repr

/-- A header frame's contents (R3). -/
structure Header where
  dsn : Nat
  firstObject : Nat
  entryCount : Nat
  entries : List Entry
deriving DecidableEq, Repr

/-- One byte of a data set's payload area. The spec gives tokens their costs in bytes (R24) but no byte layout, so a
token's bytes are named: `litHead n` opens a Literal Run of `n` raw bytes, and `matchByte len off k` is byte `k` of 3 of a
Match (assumption log 5). A byte of padding (R2) is a raw byte of value zero. -/
inductive PSym where
  | raw (b : Byte)
  | litHead (n : Nat)
  | matchByte (len off k : Nat)
deriving DecidableEq, Repr

/-- A frame on tape with the fields of R86. -/
inductive TapeFrame where
  | header (tag : Nat) (h : Header)
  | payload (tag dsn index : Nat) (syms : List PSym)
  | abandon (tag dsn : Nat)
  | eod (tag : Nat) (lastDsn : Option Nat) (nextObject : Nat)
deriving DecidableEq, Repr

/-- How the read head classes the frame place it passes (R86). -/
inductive Found where
  | readable (f : TapeFrame)
  | unreadable
  | blank
deriving DecidableEq, Repr

/-! ## Cartridges -/

/-- One entry of the Tape Directory (R12). `unended` says whether its last data set ends with a Record Part whose Ends is no, which R19
needs to know where it cuts away the first data set of the next wrap (the model's own field, assumption log 6). -/
structure DirEntry where
  wrap : Nat
  firstDsn : Nat
  lastDsn : Nat
  object : Nat
  filemarksBefore : Nat
  unended : Bool
deriving DecidableEq, Repr

/-- The EOD position (R13). `unended` says whether the last committed data set ends with a Record Part whose Ends is no,
which R19 needs to know (the model's own field, assumption log 6). -/
structure EodPos where
  wrap : Nat
  lpos : Nat
  lastDsn : Option Nat
  nextObject : Nat
  unended : Bool
deriving DecidableEq, Repr

/-- What a cartridge is: DATA or CLEANING (R132). -/
inductive CartType where
  | data
  | cleaning
deriving DecidableEq, Repr

/-- One entry of a cartridge's Session History (R132). -/
structure SessionEntry where
  serial : String
  dataSets : Nat
  rewrites : Nat
  recovered : Nat
  unrecovered : Nat
deriving DecidableEq, Repr

/-- The attributes of the Cartridge Memory (R132). -/
structure CmImage where
  cartType : CartType
  level : Nat
  serial : String
  loadCount : Nat
  sessionOpen : Bool
  directory : List DirEntry
  eod : EodPos
  filemarks : Nat
  lastRatio : Option Nat
  history : List SessionEntry
  remainingUses : Nat
  user : List (Option (List Byte))
deriving DecidableEq, Repr

/-- A cartridge as it is pushed into the mouth: the type notch, the write-protect switch and its Cartridge Memory (R131). -/
structure Cartridge where
  notch : CartType
  writeProtected : Bool
  memory : CmImage
deriving DecidableEq, Repr

/-! ## Fields of commands -/

/-- The four jumpers (R182): the address positions, Library Port Enable, Auto-Thread and Link Payload Default fitted or not. -/
structure Jumpers where
  address : Nat
  libraryEnable : Bool
  autoThread : Bool
  linkPayload : Bool
deriving DecidableEq, Repr

/-- What Read Attribute and Write Attribute name (R132): a named attribute of the image or one of the 16 user slots. -/
inductive AttrName where
  | cartType | level | serial | loadCount | sessionOpen | directory | eod | lastRatio | history | remainingUses
  | user (slot : Nat)
deriving DecidableEq, Repr

/-- What Set Setting names (R185): the settings, or a name that is no setting. -/
inductive SettingName where
  | eventMask | readAheadLimit | compression | autoThread | libraryPolicy | linkPolicy | linkPayloadDefault
  | driveAddressOverride | unknown
deriving DecidableEq, Repr

/-- What a Space counts (R102). -/
inductive SpaceKind where
  | records
  | filemarks
  | eod
deriving DecidableEq, Repr

/-- The direction of a Space (R102). -/
inductive Dir where
  | forward
  | backward
deriving DecidableEq, Repr

/-- The commands and events, in the order of the opcode table. -/
inductive Instr where
  /-- POWER_ON: supply voltage rises into range; the jumpers as they are fitted. -/
  | powerOn (jumpers : Jumpers)
  /-- RESET_LINE: the line was asserted for 10 ms or more and is released. -/
  | resetLine (jumpers : Jumpers)
  /-- BUFFER_MEMORY_TEST_DONE: pass or failure, and the stages the tape-path sensors report done (0..4). -/
  | bufferMemoryTestDone (passed : Bool) (stages : Nat)
  | lineSignalAppears
  | lineSignalLost
  /-- HELLO from the host with its maximum payload size (three bytes). -/
  | hello (maxPayload : BitVec 24)
  | helloTimeout
  | badCheckFrame
  | frameRejected
  | dataOut (tag : Tag) (payload : List Byte)
  /-- CREDIT from the host with its two-byte count. -/
  | receiveCredit (count : BitVec 16)
  | dataInSend
  | unknownCommand (tag : Tag)
  | status (tag : Tag)
  | identify (tag : Tag)
  | readPosition (tag : Tag)
  | readCounters (tag : Tag)
  | readAttribute (tag : Tag) (name : AttrName)
  /-- WRITE_ATTRIBUTE: a value of 1 to 64 bytes, or none to empty the slot. -/
  | writeAttribute (tag : Tag) (name : AttrName) (value : Option (List Byte))
  /-- SET_SETTING: a setting and a value (policies 1 GRANT, 2 REFUSE, 3 ASK; On and on 1, Off and off 0; Override 16 none). -/
  | setSetting (tag : Tag) (name : SettingName) (value : Nat)
  | saveSettings (tag : Tag)
  | storeWriteDone (ok : Bool)
  | setEventMask (tag : Tag) (mask unmask : List Nat)
  /-- CLEAR_EVENTS: the events named, or none for all. -/
  | clearEvents (tag : Tag) (events : Option (List Nat))
  | abort (tag : Tag) (named : Tag)
  | custodyRequest (tag : Tag)
  | custodyAnswer (tag : Tag) (grant : Bool)
  | release (tag : Tag)
  | readFaultRecord (tag : Tag)
  | resetDrive (tag : Tag)
  | writeRecords (tag : Tag) (unbuffered : Bool) (lengths : List Nat)
  | writeFilemarks (tag : Tag) (sync : Bool) (count : Nat)
  | flush (tag : Tag)
  | readRecords (tag : Tag) (length count : Nat)
  | space (tag : Tag) (kind : SpaceKind) (dir : Dir) (count : Nat) (immediate : Bool)
  | locate (tag : Tag) (target : Nat) (immediate : Bool)
  | rewind (tag : Tag) (immediate : Bool)
  | rebuildDirectory (tag : Tag)
  | thread (tag : Tag)
  | unthread (tag : Tag) (force : Bool)
  | eject (tag : Tag)
  | discardBuffer (tag : Tag)
  | queueHeadBegins
  | poll
  | libraryThread
  | libraryUnthread
  | libraryEject
  | libraryDriveReset
  | libraryCustodyRequest
  /-- LIBRARY_CUSTODY_ANSWER: the body byte, 1 grant, 2 refuse. -/
  | libraryCustodyAnswer (body : Byte)
  | custodyRelease
  /-- SET_LIBRARY_POLICY: the body byte, 1 GRANT, 2 REFUSE, 3 ASK. -/
  | setLibraryPolicy (body : Byte)
  | libraryRecordIgnored
  | libraryUnknownType (type : Byte)
  | libraryLineBreak
  | breakEnds
  | custodyQuestionTimeout
  | graceTimeout
  | cartridgeInserted (c : Cartridge)
  | cmReadAttemptDone (ok : Bool)
  | stagePushDone
  | stageAttemptTimeout
  | stagePopDone
  | stagePopFailed
  | sessionOpenWriteDone (ok : Bool)
  | cmWriteBackDone (ok : Bool)
  | ejectPushDone
  | ejectPushTimeout
  | useDecrementDone (ok : Bool)
  | cleaningRunDone
  | restTimerExpiry
  | retensionDone
  | tensionTimeout
  /-- RAMP_DONE and the three below: the LPOS to which the motion carried the tape. -/
  | rampDone (lpos : Nat)
  | backhitchDone (lpos : Nat)
  | seekDone (lpos : Nat)
  | turnaroundDone (lpos : Nat)
  | operationOverrun
  | servoMark (wrap lpos : Nat)
  | servoLost
  | motionSecond
  /-- PACK_RECORD_PART: whether the shadow decompressor's comparison agreed. -/
  | packRecordPart (shadowAgrees : Bool)
  /-- FRAME_PLACE: whether the payload check of a data set taken from its slot held. -/
  | framePlace (slotGood : Bool)
  | verifyFramePassed (found : Found)
  | readFramePassed (lpos : Nat) (found : Found)
  /-- CHECK_DECODE_DONE: whether the payload check of the data set taken from its slot held. -/
  | checkDecodeDone (slotGood : Bool)
  | headerScanFrame (lpos : Nat) (found : Found)
  | rebuildFrame (lpos : Nat) (found : Found)
  | libraryAnswerSent
  | resetLineAsserted
deriving DecidableEq, Repr

end Sys2Proof
end

