-- ==== Sys2Proof/Config.lean ====
section
/-! DEFINITION. What the spec leaves to one drive or to one implementation. Every constant here is opaque: it has no
body, so no proof can lean on a value of it (assumption log 3, 4, 22 and 45). -/

namespace Sys2Proof.Config

/-- The drive serial that Identify reports and the session history carries (R143, R185): fixed at manufacture. -/
opaque driveSerial : String
/-- The vendor text that Identify reports (R170). -/
opaque vendorText : String
/-- The model text that Identify reports (R170). -/
opaque modelText : String
/-- The firmware level that Identify reports (R185): fixed at manufacture. -/
opaque firmwareLevel : String
/-- What an Information field holds in a record whose rule gives no information (R174, R180). -/
opaque absentInformation : Nat
/-- What a DSN field of a sense record holds when no DSN is given (R174). -/
opaque absentDsn : Nat
/-- What a Count field of a sense record holds when no count is given (R174). -/
opaque absentCount : Nat
/-- How far before its aim a seek begins to ramp down, in hundredths of a millimetre: the tape ramps "so as to come to rest at
the run-up point" (R116), and no rule gives the length of that ramp (assumption log 22). -/
opaque seekReach : Nat
/-- How far before BOT the run of a recovery begins to ramp down from step 1 (R110, R184): no rule gives the length of that ramp
(assumption log 22). -/
opaque slowRunReach : Nat
/-- The bytes of a result that is neither a count nor an object number, by its name (R173): its payload layout is given nowhere
(assumption log 45). -/
opaque figureBytes {α : Type} (name : String) (value : α) : List Byte
/-- The payload of an Event notice that lists these events with their counts (R176): the section Layouts gives the frame's header
and check, and no layout of this payload (assumption log 45). -/
opaque eventNoticePayload : List (Nat × Nat) → List Byte
/-- The payload of the Custody Asked notice (R176; assumption log 45). -/
opaque custodyAskedPayload : List Byte

end Sys2Proof.Config
end

