-- ==== Sys2Proof/Machine/State.lean ====
section
/-! DEFINITION. The state of the TD-640 as plain data: one structure per functional block of 00_scope, the queue of commands
that wait, what the drive has sent, and `State.reset`. Where a field is the model's own and not the spec's, its comment says
so (INVENTORY.md lists every field with its rule). -/

namespace Sys2Proof.Machine

/-! ## Outcomes of the model itself -/

/-- Why the model stops. No command raises a fault: every equipment fault of the spec is state (R187). -/
inductive Fault where
  /-- Raised by no command; it stands here so that the type has a member. Safe: it is never answered. -/
  | neverRaised
deriving DecidableEq, Repr

/-- Why the model refuses a command. -/
inductive Refusal where
  /-- Raised by an arm of `exec` whose command has no meaning yet. Safe: nothing is claimed of the command. -/
  | notModelled (mnemonic : String)
deriving DecidableEq, Repr

/-! ## Names shared by the blocks -/

/-- The two ports that may hold custody (R146). -/
inductive Port where
  | link
  | library
deriving DecidableEq, Repr

/-- A custody policy (R150). -/
inductive Policy where
  | grant
  | refuse
  | ask
deriving DecidableEq, Repr

/-- The drive condition (R183). -/
inductive Condition where
  | starting
  | loading
  | recovering
  | ready
  | faulted
deriving DecidableEq, Repr

/-- The state of the cartridge (R130). -/
inductive CartState where
  | empty | seated | negotiated | threading | threaded | unthreading | held | ejecting | cleaning | stuck
deriving DecidableEq, Repr

/-- Why a medium is READ-ONLY (R133). -/
inductive ReadOnlyCause where
  | writeProtected
  | level3
  | cmUnreadable
deriving DecidableEq, Repr

/-- The medium mode (R133, R134). -/
inductive Mode where
  | readWrite
  | readOnly (cause : ReadOnlyCause)
  | writeSuspended
  | incompatible
deriving DecidableEq, Repr

/-- The six stages of the Thread Stack (R135). -/
inductive Stage where
  | seatLock | grip | draw | wrap | tension | acquire
deriving DecidableEq, Repr

/-- The nine motion states (R108). -/
inductive Motion where
  | relaxed | stopped | resting | ramping | streaming | seeking | backhitch | turnaround | halted
deriving DecidableEq, Repr

/-- The head's Condition Level (R155). -/
inductive Level where
  | normal | advisory | required | critical
deriving DecidableEq, Repr

/-- The units a fault may name (R187). -/
inductive FaultUnit where
  | bufferMemory | reelDrive | servo | threader | head | compression | cmReader | link
deriving DecidableEq, Repr

/-- The causes with which the blocks report faults (R187). -/
inductive FaultCause where
  | memoryTest | payloadCheck | overrun | noTension | servoLost | popFailed | ejectFailed | levelCritical
  | compressionFaults | cmRead | cmWrite | crcRun
deriving DecidableEq, Repr

/-- The 25 events of the Event Set (R175), in number order. -/
inductive Event where
  | cartridgeSeated | incompatibleMedium | threadComplete | threadFailed | unthreadComplete | cartridgeEjected
  | custodyChanged | custodyAsked | operationComplete | earlyWarning | writeFailure | readFailure | directoryInvalid
  | directoryRebuilt | cmWriteFailed | cleaningAdvised | cleaningRequired | driveReady | cleaningCritical | cleaningDone
  | cleaningIncomplete | cleaningExpired | equipmentWarning | driveFaulted | linkError
deriving DecidableEq, Repr

/-! ## Replies and what is sent -/

/-- The reasons of the sense record (section Layouts of the port chapter); each belongs to one outcome. -/
inductive Reason where
  | earlyWarning | short | long | filemark | endOfData | beginning | questionPosted | notedCmWriteFailed | tooLate
  | badCommand | badCount | badLength | badDirection | badObject | badAttribute | badValue | tagInUse | notFound | noQuestion
  | stWriteSuspended | noCustody | custodyRefused | incompatibleMedium | cleaningCartridge | cmUnreadable | unwrittenData
  | writeProtected | readOnlyMedium
  | notThreaded | noCartridge | cleaningRuns | becomingReady
  | queueFull | questionPending | operationInHand
  | laterMediumWork | laterCleaning
  | writeFailure | readFailure | threadFailed | cmWriteFailed
  | motionFault | threader | driveFaulted
  | endOfMedium
deriving DecidableEq, Repr

/-- The Detail of a sense record (R174). -/
inductive Detail where
  | unreadable
  | formatError
  | stage (st : Stage)
deriving DecidableEq, Repr

/-- A sense record (R174). The outcome is that of the reason. -/
structure Sense where
  reason : Reason
  detail : Option Detail := none
  unit : Option FaultUnit := none
  retry : Bool
  deferred : Bool := false
  info : Option Nat := none
  dsn : Option Nat := none
  count : Option Nat := none
deriving DecidableEq, Repr

/-- The outcome block of a REPLY (R173): GOOD and ABORTED are one byte, every other outcome is a sense record. -/
inductive OutcomeBlock where
  | good
  | aborted
  | sense (x : Sense)
deriving DecidableEq, Repr

/-- One entry of a fault record (R187). -/
structure FaultEntry where
  unit : FaultUnit
  cause : FaultCause
  time : Nat
  condition : Condition
  motion : Motion
  cart : CartState
deriving DecidableEq, Repr

/-- What closed a fault record (R186, R188). -/
inductive ClosedBy where
  | driveReset
  | powerOn
deriving DecidableEq, Repr

/-- A closed fault record in the history (R188). -/
structure ClosedRecord where
  entries : List FaultEntry
  by_ : ClosedBy
deriving DecidableEq, Repr

/-- An attribute as Read Attribute returns it (R132). -/
inductive AttrValue where
  | cartType (t : CartType)
  | level (n : Nat)
  | number (n : Nat)
  | text (s : String)
  | flag (b : Bool)
  | directory (d : List DirEntry)
  | eod (e : EodPos) (filemarks : Nat)
  | ratio (r : Option Nat)
  | history (h : List SessionEntry)
  | user (v : Option (List Byte))
deriving DecidableEq, Repr

/-- The direction of the Data Buffer (R47). -/
inductive Direction where
  | write
  | read
  | neutral
deriving DecidableEq, Repr

/-- The step of a cleaning pass (R159). -/
inductive CleaningStep where
  | decrement | thread | run | unthread
deriving DecidableEq, Repr

/-- One event's latch, occurrence count, mask flag and notice-pending flag (R175). -/
structure EventFlags where
  latched : Bool := false
  count : Nat := 0
  masked : Bool := false
  pending : Bool := false
deriving DecidableEq, Repr

/-- What Status returns (R170, with R43, R108, R130, R153, R164). -/
structure StatusReport where
  condition : Condition
  cart : CartState
  mode : Option Mode
  cleaningStep : Option CleaningStep
  cleaningSection : Option Nat
  motion : Motion
  step : Nat
  target : Nat
  cap : Nat
  direction : Direction
  slotCounts : List Nat
  readAheadActive : Bool
  holder : Port
  question : Option Port
  hci : Nat
  level : Level
  motionSeconds : Nat
  cleaningCall : Bool
  events : List EventFlags
deriving DecidableEq, Repr

/-- What Read Counters returns (R170). -/
structure CounterReport where
  accepted : Nat
  committed : Nat
  discarded : Nat
  held : Nat
  readSideDrops : Nat
  compressionFaults : Nat
  dataSetsCommitted : Nat
  rewriteFrames : Nat
  retries : Nat
  strays : Nat
  dataSetsRead : Nat
  recovered : Nat
  unrecovered : Nat
  backhitches : Nat
  turnarounds : Nat
  speedChanges : Nat
  servoLosts : Nat
  crs : Nat
  hs : Option Nat
  target : Nat
  pendingTarget : Option Nat
  hci : Nat
  level : Level
  motionSeconds : Nat
  cleaningCall : Bool
  samples : Nat
  linkErrors : Nat
deriving DecidableEq, Repr

/-- The Last Immediate Result (R105): the outcome block its reply would have carried, and the Position. -/
structure ImmediateResult where
  outcome : OutcomeBlock
  position : Nat
deriving DecidableEq, Repr

/-- The results of a reply, in the order the command's rule names them (R173). -/
inductive Results where
  | none
  | position (p : Nat)
  | records (n p : Nat)
  | discarded (n : Nat)
  | value (n : Nat)
  | attribute_ (v : AttrValue)
  | status (r : StatusReport)
  | identity (vendor model serial firmware : String) (address : Nat)
  | positionReport (position : Nat) (wrap lpos : Option Nat) (earlyWarning : Bool) (last : Option ImmediateResult)
  | counters (r : CounterReport)
  | faults (suspect : Option FaultUnit) (current : Option (List FaultEntry)) (history : List ClosedRecord) (storeGood : Bool)
deriving DecidableEq, Repr

/-- The outcome and the results of a REPLY (R173). -/
structure Reply where
  outcome : OutcomeBlock
  results : Results := .none
deriving DecidableEq, Repr

/-- The fields of the library status record (R179). -/
structure LibStatus where
  address : Nat
  condition : Condition
  cart : CartState
  mode : Option Mode
  level : Level
  linkHolds : Bool
  questionFlag : Bool
  cleaningCall : Bool
  earlyWarning : Bool
deriving DecidableEq, Repr

/-- A record the Library Port sends: the status record (R179), or a Reply record with its reason (`none` for GOOD) and
information (R180). -/
inductive LibRecord where
  | status (r : LibStatus)
  | reply (address : Nat) (reason : Option Reason) (info : Option Nat)
deriving DecidableEq, Repr

/-- What leaves the drive: Data Link frames, library records and frames written to tape. -/
inductive Output where
  | hello (maximum agreed : Nat)
  | reply (tag : Tag) (r : Reply)
  | dataIn (tag : Tag) (endOfRecord : Bool) (payload : List Byte)
  | credit (count : Nat)
  | eventNotice (events : List (Nat × Nat))
  | custodyAsked (requester : Port)
  | library (r : LibRecord)
  | frame (place : Place) (f : TapeFrame)
deriving DecidableEq, Repr

/-! ## Data Link Port -/

/-- The link state (R167). -/
inductive LinkState where
  | down
  | awaitingHello
  | up
deriving DecidableEq, Repr

/-- A medium command as it stands in the Medium Queue (R171). -/
inductive MedCmd where
  | writeRecords (unbuffered : Bool) (lengths : List Nat)
  | writeFilemarks (sync : Bool) (count : Nat)
  | flush
  | readRecords (length count : Nat)
  | space (kind : SpaceKind) (dir : Dir) (count : Nat) (immediate : Bool)
  | locate (target : Nat) (immediate : Bool)
  | rewind (immediate : Bool)
  | rebuildDirectory
  | thread
  | unthread (force : Bool)
  | eject
  | discardBuffer
deriving DecidableEq, Repr

/-- One entry of the Medium Queue. -/
structure QEntry where
  tag : Tag
  cmd : MedCmd
deriving DecidableEq, Repr

/-- How far the command at the head of the Medium Queue has come (the model's own; R171 only says "executing"). -/
inductive HeadPhase where
  /-- no command at the head has begun -/
  | notBegun
  /-- waits on a media operation or on negotiation (R136, R141, R145) -/
  | waitMedia
  /-- waits on a flush, or on the EOD frame a discard calls for (R49, R142) -/
  | waitFlush
  /-- its own work may begin, and waits for the tape, which the writer still has for its EOD frame (R49, R112) -/
  | waitTape
  /-- a Rebuild pass runs for it (R15) -/
  | rebuilding
  /-- a header scan looks for the data set the append point lies in (R19) -/
  | appendScan
  /-- the data set of the append point is read again (R19) -/
  | rereading
  /-- Write Records receives Data-Out (R80) -/
  | receiving
  /-- an Unbuffered Write Records waits for its commit (R80) -/
  | waitCommit
  /-- Write Filemarks has filemarks still to place (R82) -/
  | placing
  /-- Write Filemarks with Sync waits for the write side to empty (R82) -/
  | waitSync
  /-- Flush waits for the tape to stop (R83) -/
  | waitStop
  /-- Read Records executes (R100) -/
  | reading
  /-- a Locate or Space searches (R97, R98) -/
  | searching
  /-- the tape moves to BOT or to the EOD place for Rewind, Locate or Space -/
  | moving
  /-- a Thread in hand or joined (R136) -/
  | threading
  /-- an Unthread in hand (R142) or unwinding a thread (R138) -/
  | unthreading
  /-- an Eject in hand: making its Unthread, or pushing (R145) -/
  | ejecting
deriving DecidableEq, Repr

/-- The working figures of the command at the head (the model's own bookkeeping for R80 to R105). -/
structure Run where
  phase : HeadPhase := .notBegun
  /-- no reply is sent: a Link Reset ended the command (R168) -/
  mute : Bool := false
  /-- answered under Immediate (R105) -/
  answered : Bool := false
  /-- an Abort is in hand and waits for a boundary (R172) -/
  aborting : Bool := false
  /-- records Accepted under this command -/
  accepted : Nat := 0
  /-- Write Records: lengths of the records not yet received whole -/
  lengths : List Nat := []
  /-- Write Records: bytes received of the first of `lengths` -/
  got : Nat := 0
  /-- Read Records: records delivered, bytes of the current record sent, bytes of the current part taken, bytes of the
  current record decoded -/
  delivered : Nat := 0
  sent : Nat := 0
  partDone : Nat := 0
  decoded : Nat := 0
  /-- Read Records: bytes of the current record taken for a Data-In frame that they do not fill -/
  chunk : List Byte := []
  /-- the Position at which the command was taken -/
  startPosition : Nat := 0
  /-- Data-Out lost room: the Position past the last object of this command -/
  lastObject : Nat := 0
deriving DecidableEq, Repr

/-- The Data Link Port (chapter 9). -/
structure Dlp where
  signal : Bool := false
  link : LinkState := .down
  helloTimer : Nat := 0
  payloadDefault : Nat := 16384
  agreed : Nat := 4096
  /-- outstanding tags (R170, R171) -/
  tags : List Tag := []
  queue : List QEntry := []
  run : Run := {}
  creditsOut : Nat := 0
  receiveCredits : Nat := 0
  heldTime : Nat := 0
  linkBytes : Nat := 0
  crcRun : Nat := 0
  linkErrors : Nat := 0
deriving DecidableEq, Repr

/-! ## Library Port -/

/-- The Library Port's line state (R178). -/
inductive LineState where
  | disabled
  | listening
  | answering
  | inBreak
deriving DecidableEq, Repr

/-- An order that waits for negotiation before it is answered (R136, R145). -/
inductive LibOrder where
  | thread
  | eject
deriving DecidableEq, Repr

/-- The Library Port (chapter 9): line state, Drive Address, question flag, the answer being sent and the order waiting. -/
structure Lbp where
  line : LineState := .disabled
  address : Nat := 0
  questionFlag : Bool := false
  answer : Option LibRecord := none
  waiting : Option LibOrder := none
deriving DecidableEq, Repr

/-! ## Data Buffer and Compression Engine -/

/-- The seven states of a slot (R43). FREE slots are not listed in the rings: of the 128 slots, those not in a ring are FREE. -/
inductive SlotState where
  | free | filling | pending | writing | reading | ready | draining
deriving DecidableEq, Repr

/-- A slot with its slot record (R43), the data set it holds, and the Write Channel's data set record (R62 table). -/
structure Slot where
  state : SlotState
  dsn : Nat
  firstObject : Option Nat := none
  objectCount : Option Nat := none
  objectAfter : Option Nat := none
  figU : Option Nat := none
  figC : Option Nat := none
  retried : Bool := false
  cut : Bool := false
  recovered : Bool := false
  unrecoverable : Option Detail := none
  /-- the header that gave its objects is consistent (R5): the model's own -/
  consistent : Bool := true
  entries : List Entry := []
  payload : List PSym := []
  /-- how many leading entries were carried (R19): the model's own -/
  carried : Nat := 0
  /-- data set record: next frame index to issue -/
  nextIndex : Nat := 0
  /-- data set record: frame indices with a GOOD verdict in the current copy -/
  good : List Nat := []
  /-- data set record: the attempt number of each frame index -/
  attempts : List Nat := []
  /-- data set record: frames written on the current wrap -/
  written : Nat := 0
  /-- the place of its first frame in the current copy, and of its last frame or blank place (R63): the model's own -/
  startPlace : Option Place := none
  endPlace : Option Place := none
  /-- its retry copy waits for the Abandon frame's GOOD verdict (R64): the model's own -/
  awaitAbandon : Bool := false
deriving DecidableEq, Repr

/-- One filled staging buffer (R50): the bytes the engine has still to consume and the command's tag. -/
structure Staging where
  tag : Tag
  bytes : List Byte
deriving DecidableEq, Repr

/-- An object that waits for the engine, in arrival order (the model's own; R31, R32). A record: its length, the bytes
received, the bytes placed or taken into the part being formed, and whether it is Accepted or dropped. -/
inductive Intake where
  | filemark (tag : Tag)
  | record (tag : Tag) (length received placed : Nat) (object : Option Nat) (accepted dropped : Bool)
deriving DecidableEq, Repr

/-- The Data Buffer (chapter 3). -/
structure Dbf where
  writeRing : List Slot := []
  readRing : List Slot := []
  direction : Direction := .neutral
  staging : List Staging := []
  readAheadActive : Bool := false
  readAheadLimit : Nat := 32
  starvedTime : Nat := 0
  readSideDrops : Nat := 0
  /-- a flush is demanded and has not ended (R34, R55) -/
  flush : Bool := false
deriving DecidableEq, Repr

/-- The Compression Engine's states (R23). -/
inductive EngineState where
  | idle | packing | slotWait | unpacking
deriving DecidableEq, Repr

/-- The Compression Engine (chapter 2). The open data set is the FILLING slot at the write ring's tail. -/
structure Cpe where
  engine : EngineState := .idle
  /-- bytes of the record part being formed -/
  forming : List Byte := []
  window : List Byte := []
  compressThisSet : Bool := false
  carryEntries : List Entry := []
  carryPayload : List PSym := []
  carryFirst : Nat := 0
  faults : Nat := 0
  sessionDisable : Bool := false
  switchOn : Bool := true
  /-- objects that wait to be placed (the model's own) -/
  intake : List Intake := []
  /-- a flush has still to close the open data set, after this many more objects (the model's own; R34) -/
  closeAfter : Option Nat := none
  /-- the check decode of the DRAINING slot has ended clean (R38) -/
  checked : Bool := false
deriving DecidableEq, Repr

/-! ## Format Control -/

/-- Format Control (chapter 1). -/
structure Fmc where
  position : Nat := 0
  nextObject : Nat := 0
  nextDsn : Nat := 0
  directory : List DirEntry := []
  eod : EodPos
  directoryValid : Bool := false
  earlyWarning : Bool := false
  accepted : Nat := 0
  committed : Nat := 0
  discarded : Nat := 0
  filemarks : Nat := 0
deriving DecidableEq, Repr

/-! ## Write Channel -/

/-- The writer's states (R62). -/
inductive Writer where
  | idle | starting | writing | ending | suspended
deriving DecidableEq, Repr

/-- The kinds of a Verify Window entry (R65). -/
inductive WinKind where
  | data | abandon | eod
deriving DecidableEq, Repr

/-- An entry of the Verify Window (R65). -/
structure WinEntry where
  tag : Nat
  kind : WinKind
  dsn : Option Nat
  index : Option Nat
  attempt : Nat
  place : Place
deriving DecidableEq, Repr

/-- An entry of the Rewrite Queue (R68). -/
structure RewriteEntry where
  dsn : Nat
  index : Nat
  attempt : Nat
deriving DecidableEq, Repr

/-- What Report Pending may hold (R76). -/
inductive ReportKind where
  | writeFailure
  | endOfMedium
  | sessionOpen
deriving DecidableEq, Repr

/-- Report Pending (R76). -/
structure Report where
  kind : ReportKind
  dsn : Option Nat
  firstObject : Nat
  held : Nat
deriving DecidableEq, Repr

/-- Why an EOD frame is being written (R77), and its attempt number. -/
inductive EodCause where
  | idle
  | endOfMedium
  | failure
  | discard
deriving DecidableEq, Repr

/-- An EOD frame still to be written or verified (the model's own). -/
structure EodPlan where
  cause : EodCause
  attempt : Nat
deriving DecidableEq, Repr

/-- Where the wrap being written stands (R72; the model's own). -/
inductive WrapPhase where
  | open_
  | closing
  | runOut
deriving DecidableEq, Repr

/-- The Write Channel (chapter 4). -/
structure Wch where
  writer : Writer := .idle
  nextTag : Nat := 0
  window : List WinEntry := []
  voidTags : List Nat := []
  rewriteQueue : List RewriteEntry := []
  abandon : Option (Nat × Nat) := none
  eodCurrent : Bool := false
  report : Option Report := none
  endOfMediumStop : Bool := false
  dataSetsCommitted : Nat := 0
  rewriteFrames : Nat := 0
  retries : Nat := 0
  strays : Nat := 0
  /-- the place the next frame takes (R63): the model's own -/
  nextPlace : Place := ⟨0, 1000000⟩
  eodPlan : Option EodPlan := none
  /-- the EOD frame after a permanent write failure failed its attempts (R74 step 3) -/
  eodGivenUp : Bool := false
  wrapPhase : WrapPhase := .open_
  /-- a first frame has been issued in this session (R64) -/
  sessionStarted : Bool := false
deriving DecidableEq, Repr

/-! ## Read Channel -/

/-- The Read Channel's duties (R87). -/
inductive Duty where
  | idle | verify | collect | recover | scan
deriving DecidableEq, Repr

/-- A frame held by a collector: the index and its payload symbols (none for the header, index 0). -/
structure HeldFrame where
  index : Nat
  syms : List PSym
deriving DecidableEq, Repr

/-- The current collector, or the Next collector (chapter 5). -/
structure Collector where
  dsn : Nat
  held : List HeldFrame := []
  header : Option Header := none
  copyStart : Option Place := none
  passNumber : Nat := 0
  missing : Option Nat := none
  /-- the furthest place of a frame of d met in its last copy, rewrites included (the model's own; R16) -/
  lastPlace : Option Place := none
  /-- a readable frame of d + 2 or higher has been met in some pass (R90) -/
  laterMet : Bool := false
  /-- where d began: the first place of a frame of d on the wrap of its last copy (the model's own; R19); an Abandon frame does not
  move it -/
  began : Option Place := none
deriving DecidableEq, Repr

/-- What a collection is made for (R89). -/
inductive CollectFor where
  | forward
  | target
  | reread
  | scanHelp
  | rebuildHeader
  | rebuildTail
deriving DecidableEq, Repr

/-- A header met in a scan, with its place. -/
structure SeenHeader where
  header : Header
  place : Place
deriving DecidableEq, Repr

/-- What a header scan looks for (R97 to R103, R19). -/
inductive ScanGoal where
  /-- Locate: the data set that holds the entry beginning this object -/
  | object (t : Nat)
  /-- Read Records: the data set that holds the Position's object -/
  | position
  /-- Space: kind, direction, count left to pass, the Position reached so far, and whether counting has begun -/
  | space (kind : SpaceKind) (dir : Dir) (left reached : Nat) (counting : Bool)
  /-- a write at this object: the data set it lies in, counting the wrap's filemarks (R19) -/
  | append (n : Nat) (filemarks : Nat)
  /-- Space: the stopping point is fixed and its data set is sought; the reason (none for GOOD) and the residue -/
  | settled (p : Nat) (reason : Option Reason) (residue : Nat)
deriving DecidableEq, Repr

/-- The data set that a header scan expects to meet next before it has read a header, in the direction of the scan: its DSN, the object
that lies at its beginning, or at its end for a scan backward, where that is known, and a place before it (R97, R98, R102). -/
structure Due where
  dsn : Nat
  object : Option Nat
  place : Place
deriving DecidableEq, Repr

/-- A header scan in progress (the model's own bookkeeping). -/
structure Scan where
  goal : ScanGoal
  forward : Bool := true
  fallback : Nat := 0
  last : Option SeenHeader := none
  /-- what is known of the data set to be met first -/
  due : Option Due := none
  /-- the step of the scan, fixed when it began (R111); 0 before that -/
  step : Nat := 0
  /-- the place of the last header read, whatever came of it (R119, R120) -/
  lastRead : Option Place := none
  /-- the header that follows a gap in the DSNs met (R97) -/
  beyondGap : Option SeenHeader := none
  /-- the data sets whose frames the scan forward has met of late, the latest first, each with the place of the first of its frames on
  its wrap: where it began (R6, R19) -/
  began : List (Nat × Place) := []
  /-- the data set before the one found is known to end with an unended part (R19) -/
  unendedBefore : Bool := false
  blanks : Nat := 0
  blankStart : Nat := 0
deriving DecidableEq, Repr

/-- A data set accepted by a Rebuild pass (R16). -/
structure Accepted where
  dsn : Nat
  wrap : Nat
  firstObject : Nat
  objectAfter : Nat
  filemarks : Nat
  unended : Bool
  place : Place
  /-- the furthest place of a frame of it that the pass has met on its wrap -/
  lastFrame : Place
deriving DecidableEq, Repr

/-- A Rebuild pass in progress (R16): expected DSN and object, and what was accepted, newest first. -/
structure Rebuild where
  expectedDsn : Nat := 0
  expectedObject : Nat := 0
  accepted : List Accepted := []
  wasValid : Bool
  foundEod : Bool := false
  /-- the step of the pass, fixed when it began (R111) -/
  step : Nat := 0
  /-- the place of the last header read, whatever came of it (R119, R120) -/
  lastRead : Option Place := none
  /-- the place of the first of the unreadable frames that directly precede the present place, with their number (the model's own;
  R16) -/
  unreadFrom : Option Place := none
  unread : Nat := 0
  blanks : Nat := 0
  blankStart : Nat := 0
deriving DecidableEq, Repr

/-- The head offset of a recovery pass (R94). -/
inductive HeadOffset where
  | none
  | positive
  | negative
deriving DecidableEq, Repr

/-- The Read Channel (chapter 5). -/
structure Rch where
  duty : Duty := .idle
  trail : List (Place × Nat) := []
  current : Option Collector := none
  next : Option Collector := none
  expected : Option Nat := none
  resume : Option Place := none
  /-- the place of the last frame that the collection in hand has passed (the model's own; R120) -/
  lastTaken : Option Place := none
  targetRead : Bool := false
  lastImmediate : Option ImmediateResult := none
  dataSetsRead : Nat := 0
  recovered : Nat := 0
  unrecovered : Nat := 0
  offset : HeadOffset := .none
  passStep : Nat := 0
  /-- the speed of pass 0, and the place of the frame that last met the incompleteness condition, with whether it was the
  end of the data (R94, R95): the model's own -/
  pass0Step : Nat := 0
  lastEnd : Option Place := none
  lastEndFinal : Bool := false
  collectFor : CollectFor := .forward
  /-- the DSN that forward reading takes up next, when known (the model's own; R56) -/
  nextDsn : Option Nat := none
  scan : Option Scan := none
  rebuild : Option Rebuild := none
  blanks : Nat := 0
  blankStart : Nat := 0
deriving DecidableEq, Repr

/-! ## Motion Controller and Speed Governor -/

/-- What the tape moves for (R112). -/
inductive Work where
  | writing | collecting | scanning | rebuilding | cleaningRun
  | rewinding | toEod | found | unthreadRewind | cleaningRewind | resetReacquire | resetRewind | recoveryRewind | stopping
  /-- the servo acquisition of the Acquire stage, and the reacquisition of a recovery (R118, R184) -/
  | acquiring
deriving DecidableEq, Repr

/-- One phase of a motion operation; `ramp none` is a ramp to the governor's target as it then stands (R113, R128). -/
inductive Phase where
  | retension
  | ramp (step : Option Nat)
  | backhitch
  | seek
  | turnaround
  | markRun
  | slowRun
deriving DecidableEq, Repr

/-- The motion operation in progress (R112): its work, its aim, the phases still to run (the first is running). -/
structure Operation where
  work : Work
  aim : Option Place
  plan : List Phase
  /-- a response to a Servo Lost is part of the operation (R120) -/
  reacquiring : Bool := false
deriving DecidableEq, Repr

/-- The kinds of motion request: a start to stream (R113), a seek to rest (R116), a backhitch to rest (R115). -/
inductive ReqKind where
  | stream
  | seek
  | backhitch
deriving DecidableEq, Repr

/-- A motion request (R112). -/
structure MotionReq where
  kind : ReqKind
  work : Work
  aim : Place
  /-- for a start to stream: the data step, or none for the governor's target (R113) -/
  step : Option Nat := none
deriving DecidableEq, Repr

/-- The Motion Controller (chapter 6). -/
structure Moc where
  motion : Motion := .relaxed
  step : Nat := 0
  towardHigh : Bool := true
  wrap : Option Nat := none
  lpos : Option Nat := none
  operation : Option Operation := none
  waiting : Option MotionReq := none
  /-- the work for which the tape streams -/
  work : Work := .stopping
  /-- the place at whose run-up point the tape stands (R113): the model's own -/
  restsFor : Option Place := none
  servoLost : Nat := 0
  /-- microseconds since the last mark read, while the servo watch is armed (R119) -/
  watch : Nat := 0
  /-- how far the tape has moved beyond the LPOS held since that was last set, in ten-thousandths of a hundredth of a millimetre
  (R118): the model's own -/
  drift : Nat := 0
  /-- microseconds that the phase in hand has lasted (R110, R119): the model's own -/
  phaseTime : Nat := 0
  /-- successive marks read in a mark run (R118, R120) -/
  marks : Nat := 0
  restTimer : Nat := 0
  motionTime : Nat := 0
  formatCap : Nat := 6
  conditionCap : Nat := 6
  backhitches : Nat := 0
  turnarounds : Nat := 0
  speedChanges : Nat := 0
  servoLosts : Nat := 0
deriving DecidableEq, Repr

/-- The Speed Governor (chapter 6). -/
structure Sgv where
  crs : Nat := 512
  hs : Option Nat := none
  target : Nat := 3
  pendingTarget : Option Nat := none
  pendingCount : Nat := 0
  mark : Nat := 0
deriving DecidableEq, Repr

/-! ## Cartridge Handler, Head Condition Monitor -/

/-- The stage in progress (R135). -/
structure StageWork where
  stage : Stage
  push : Bool
  attempt : Nat := 1
  timer : Nat := 0
deriving DecidableEq, Repr

/-- Who ordered a media operation: the Library Port, or the Data Link command with this tag. -/
inductive Orderer where
  | library
  | link (tag : Tag)
deriving DecidableEq, Repr

/-- The kinds of media operation. -/
inductive MediaKind where
  | thread | unthread | eject
deriving DecidableEq, Repr

/-- The media operation in hand (R130). -/
structure MediaOp where
  kind : MediaKind
  orderer : Orderer
  force : Bool := false
deriving DecidableEq, Repr

/-- Why the stack is being popped, and so what follows when it is empty (R138, R142, R162, R163, R184; the model's own). -/
inductive Unwind where
  | threadFailed (st : Stage)
  | threadAborted
  | unthread
  | cleaningDone
  | cleaningAborted
  | recovery
  | stuck
deriving DecidableEq, Repr

/-- A custody question: the requesting port, its timer, and the tag of a Data Link request that waits (R148). -/
structure Question where
  requester : Port
  timer : Nat := 0
  tag : Option Tag := none
deriving DecidableEq, Repr

/-- The Cartridge Handler (chapters 7 and 8). -/
structure Cah where
  state : CartState := .empty
  /-- the cartridge that is physically in the drive, with its Cartridge Memory -/
  cartridge : Option Cartridge := none
  sensedType : Option CartType := none
  writeProtected : Bool := false
  cmReadable : Bool := false
  image : Option CmImage := none
  negotiated : Option Mode := none
  mode : Option Mode := none
  stack : List Stage := []
  stageWork : Option StageWork := none
  unwind : Option Unwind := none
  mediaOp : Option MediaOp := none
  sessionOpenMarked : Bool := false
  holder : Port := .library
  libraryPolicy : Policy := .grant
  linkPolicy : Policy := .ask
  autoThread : Bool := false
  question : Option Question := none
  grace : Option Nat := none
  /-- the number of the Cartridge Memory read attempt in progress (R131) -/
  cmReadAttempt : Option Nat := none
  /-- the number of the Session Open write attempt in progress (R140) -/
  sessionOpenWrite : Option Nat := none
  /-- the write-back is in progress, or waits for the Session Open write (R140, R143) -/
  writeBack : Bool := false
  writeBackWaits : Bool := false
  writeBackFailed : Bool := false
  /-- an eject push is in progress (R145) -/
  pushing : Bool := false
  /-- the tape is being recovered, or the cartridge read and negotiated after a recovery (R184) -/
  recovering : Bool := false
  /-- a cartridge stood in the drive when power returned and LOADING has still to find it (R151) -/
  found : Bool := false
  cleaningStep : Option CleaningStep := none
  usesBefore : Nat := 0
  sect : Nat := 0
  runLength : Nat := 0
  aborted : Bool := false
deriving DecidableEq, Repr

/-- The Head Condition Monitor (chapter 8). -/
structure Hcm where
  hci : Nat := 0
  level : Level := .normal
  motionSeconds : Nat := 0
  cleaningCall : Bool := false
  samples : Nat := 0
deriving DecidableEq, Repr

/-! ## Parameter Store and Fault Register -/

/-- What the non-volatile store holds (R185): raw values, absent where nothing was stored. -/
structure Stored where
  eventMask : Option (List Bool) := none
  readAheadLimit : Option Nat := none
  compression : Option Nat := none
  autoThread : Option Nat := none
  libraryPolicy : Option Nat := none
  linkPolicy : Option Nat := none
  linkPayload : Option Nat := none
  addressOverride : Option Nat := none
  hci : Option Nat := none
  level : Option Nat := none
  motionSeconds : Option Nat := none
  history : List ClosedRecord := []
  current : Option (List FaultEntry) := none
deriving DecidableEq, Repr

/-- A write of the store in progress (R157, R186, R187): Save Settings with its tag while that is outstanding, the retained items, or the fault records. -/
inductive StoreWrite where
  | settings (tag : Option Tag) (content : Stored)
  | retained (hci : Nat) (level : Level) (seconds : Nat)
  | faults (current : Option (List FaultEntry)) (history : Option (List ClosedRecord))
deriving DecidableEq, Repr

/-- The Parameter Store: what is stored, the working copies that no other block holds, the writes in progress and the
Store Status (R185, R186). -/
structure Pst where
  stored : Stored := {}
  autoThread : Bool := false
  libraryPolicy : Policy := .grant
  linkPolicy : Policy := .ask
  linkPayload : Nat := 16384
  addressOverride : Option Nat := none
  writes : List StoreWrite := []
  statusGood : Bool := true
  history : List ClosedRecord := []
deriving DecidableEq, Repr

/-- What a Drive Reset still has to do (R183; the model's own). -/
inductive ResetWork where
  /-- the buffer memory test runs again (R183) -/
  | memoryTest
  /-- the EOD frame is written first (R85) -/
  | eodFirst
  /-- the tape goes to BOT (R129) -/
  | rewind
  /-- the Cartridge Handler's work: an unwind, retried pops or push, an aborted cleaning pass, a recovery -/
  | handler
deriving DecidableEq, Repr

/-- The Fault Register (chapter 10). -/
structure Frg where
  condition : Condition := .starting
  current : Option (List FaultEntry) := none
  /-- the drive condition has been READY since the last Power-On or Reset Line (R180, R182) -/
  wasReady : Bool := false
  resetWork : Option ResetWork := none
  /-- FAULTED was raised by the buffer memory test of STARTING (R183) -/
  testFailed : Bool := false
  /-- the store has been loaded since the last Power-On or Reset Line (R186) -/
  storeLoaded : Bool := false
  /-- the fault record that a Power-On or the Reset Line met open in the store, until the load closes it (R186) -/
  metOpen : Option (List FaultEntry) := none
  /-- the reset line is asserted (R182) -/
  lineAsserted : Bool := false
  /-- the level event of R158 waits for READY -/
  levelEventDue : Bool := false
deriving DecidableEq, Repr

/-! ## The whole drive -/

/-- The state of the drive, the commands that wait (first in, first out), and everything it has sent, oldest first. -/
structure State where
  pending : List Instr
  out : List Output
  timeBase : Nat
  jumpers : Jumpers
  dlp : Dlp
  lbp : Lbp
  events : List EventFlags
  dbf : Dbf
  cpe : Cpe
  fmc : Fmc
  wch : Wch
  rch : Rch
  moc : Moc
  sgv : Sgv
  cah : Cah
  hcm : Hcm
  pst : Pst
  frg : Frg
deriving DecidableEq, Repr

/-- The empty values of the EOD position (R13): wrap 0, LPOS 10,000 mm, no DSN, next object 0. -/
def EodPos.empty : EodPos := ⟨0, 1000000, none, 0, false⟩

/-- The drive right after a Power-On, in STARTING: nothing stored, no cartridge, no jumper fitted (assumption log 7). -/
def State.reset : State where
  pending := []
  out := []
  timeBase := 0
  jumpers := ⟨0, false, false, false⟩
  dlp := {}
  lbp := {}
  events := List.replicate 25 {}
  dbf := {}
  cpe := {}
  fmc := { eod := EodPos.empty }
  wch := {}
  rch := {}
  moc := {}
  sgv := {}
  cah := {}
  hcm := {}
  pst := {}
  frg := {}

end Sys2Proof.Machine
end

