-- ==== Sys2Proof/Machine/Operands.lean ====
section
/-! DEFINITION. Computations over what commands and frames carry: places along a wrap (R8, R9), the numbering of objects
through a data set (R3, R4, R5), the stopping point of a Space (R102), the estimate of a Locate (R98), and the ranges of
command fields (R79, R82, R99, R185). -/

namespace Sys2Proof

/-! ## Places (R8, R9) -/

/-- A frame occupies 1.64 mm (R8). -/
def frameLen : Nat := 164
/-- The writable region runs from LPOS 10,000 to 970,000 mm (R8). -/
def regionLow : Nat := 1000000
def regionHigh : Nat := 97000000
/-- 73.8 mm: a data set's 33 frames and a reserve of 12 (R9). -/
def dataSetRoom : Nat := 7380
/-- 54.12 mm: a data set written with no rewrite (R9). -/
def dataSetLen : Nat := 5412
/-- The last 4 frame places of each wrap, kept for the EOD frame and its copies (R9). -/
def eodRoom : Nat := 656

/-- A wrap's start (R8). -/
def wrapStart (w : Nat) : Place := ⟨w, if w % 2 = 0 then regionLow else regionHigh⟩

/-- A wrap's far end. -/
def wrapEnd (w : Nat) : Place := ⟨w, if w % 2 = 0 then regionHigh else regionLow⟩

/-- The remaining writable length at a place (R8). -/
def remaining (p : Place) : Nat := if p.wrap % 2 = 0 then regionHigh - p.lpos else p.lpos - regionLow

/-- A place moved by `d` hundredths of a millimetre in the wrap's direction. -/
def Place.forward (p : Place) (d : Nat) : Place :=
  if p.wrap % 2 = 0 then { p with lpos := p.lpos + d } else { p with lpos := p.lpos - d }

/-- The frame place after this one. -/
def Place.next (p : Place) : Place := p.forward frameLen

/-- How far a place lies from its wrap's start, in the wrap's direction. -/
def offsetOf (p : Place) : Nat := if p.wrap % 2 = 0 then p.lpos - regionLow else regionHigh - p.lpos

/-- Whether `p` lies further along than `q` (a later wrap, or further along one wrap). -/
def Place.after (p q : Place) : Bool := q.wrap < p.wrap || (q.wrap == p.wrap && offsetOf q < offsetOf p)

/-- The last wrap of a cartridge: 63 on Level 3 media, 95 otherwise (R8). -/
def lastWrapOf (level3 : Bool) : Nat := if level3 then 63 else 95

/-- Early Warning holds while the EOD position lies on wrap 95 with less than 24,000 mm remaining (R10). -/
def earlyWarningAt (e : EodPos) : Bool := e.wrap == 95 && remaining ⟨e.wrap, e.lpos⟩ < 2400000

/-- The EOD position's place. -/
def EodPos.place (e : EodPos) : Place := ⟨e.wrap, e.lpos⟩

/-! ## Objects through a data set (R3 to R5) -/

/-- Whether an entry begins an object: a Filemark, or a Record Part with Begins yes (R4). -/
def Entry.beginsObject : Entry → Bool
  | .filemark => true
  | .part p => p.begins

/-- Whether an entry leaves its record unended: a Record Part with Ends no (R4). -/
def Entry.unended : Entry → Bool
  | .filemark => false
  | .part p => !p.ends

def Entry.isFilemark : Entry → Bool
  | .filemark => true
  | .part _ => false

/-- The stored length an entry takes in the payload; a filemark takes none (R3, R32). -/
def Entry.stored : Entry → Nat
  | .filemark => 0
  | .part p => p.slen

/-- The uncompressed length of an entry. -/
def Entry.uncompressed : Entry → Nat
  | .filemark => 0
  | .part p => p.ulen

/-- The entries after one that belongs to object `o`, each with its object number (R4). -/
def numberAfter (o : Nat) : List Entry → List (Entry × Nat)
  | [] => []
  | e :: rest =>
    let n := if e.beginsObject then o + 1 else o
    (e, n) :: numberAfter n rest

/-- The entries of a data set with their object numbers: the first belongs to the first object number (R3, R4). -/
def numbered (first : Nat) : List Entry → List (Entry × Nat)
  | [] => []
  | e :: rest => (e, first) :: numberAfter first rest

/-- The object after a data set (R4). -/
def objectAfter (first : Nat) (es : List Entry) : Nat :=
  match (numbered first es).getLast? with
  | none => first
  | some (e, o) => if e.unended then o else o + 1

/-- The objects that begin in a data set, each with whether it is a filemark. -/
def begunObjects (first : Nat) (es : List Entry) : List (Nat × Bool) :=
  ((numbered first es).filter (fun x => x.1.beginsObject)).map (fun x => (x.2, x.1.isFilemark))

/-- Whether a data set holds the entry that begins object `t` (R58, R98). -/
def holdsObject (t first : Nat) (es : List Entry) : Bool := (begunObjects first es).any (fun x => x.1 == t)

/-- The number of entries that begin an object (R43). -/
def countObjects (es : List Entry) : Nat := (es.filter Entry.beginsObject).length

def countFilemarks (es : List Entry) : Nat := (es.filter Entry.isFilemark).length

/-- Record Part entries whose Ends is yes (R13). -/
def countEnds (es : List Entry) : Nat := (es.filter (fun e => match e with | .filemark => false | .part p => p.ends)).length

def sumStored (es : List Entry) : Nat := (es.map Entry.stored).sum

def sumUncompressed (es : List Entry) : Nat := (es.map Entry.uncompressed).sum

/-- No Record Part with Begins no follows a Filemark or a Record Part with Ends yes, and no entry but the last is a Record
Part with Ends no: the last two conditions of R5, read along the list. -/
def followsWell : List Entry → Bool
  | [] => true
  | [_] => true
  | a :: b :: rest =>
    (if a.unended then false else b.beginsObject) && followsWell (b :: rest)

/-- A header frame is consistent (R5). -/
def Header.consistent (h : Header) : Bool :=
  h.entryCount == h.entries.length && 1 ≤ h.entryCount && h.entryCount ≤ 8192 && sumStored h.entries ≤ 1048576
    && followsWell h.entries

/-- The header shows object `t` already passed (R98 step 5): a first object above `t`, or `t` itself not begun by the
first entry. -/
def Header.passed (h : Header) (t : Nat) : Bool :=
  t < h.firstObject || (h.firstObject == t && !(match h.entries with | [] => false | e :: _ => e.beginsObject))

/-- The header's first entry begins an object. -/
def Header.firstBegins (h : Header) : Bool := match h.entries with | [] => false | e :: _ => e.beginsObject

/-- A header's first entry begins object `t`: a write there overwrites at a boundary (R19). -/
def Header.opens (h : Header) (t : Nat) : Bool := h.firstObject == t && h.firstBegins

def Header.after (h : Header) : Nat := objectAfter h.firstObject h.entries

def Header.holds (h : Header) (t : Nat) : Bool := holdsObject t h.firstObject h.entries

def lastUnended (es : List Entry) : Bool := match es.getLast? with | none => false | some e => e.unended

/-- The entries that belong to objects below `n` (R19). -/
def entriesBelow (n first : Nat) (es : List Entry) : List Entry :=
  ((numbered first es).takeWhile (fun x => x.2 < n)).map Prod.fst

/-- Whether a frame's EOD is valid for a reader whose last data set is `prev` (R6). -/
def eodValid (named prev : Option Nat) : Bool := named == prev

/-! ## Space (R102) -/

/-- Where a Space stands after some objects: stopped with an outcome, or with a count still left. -/
inductive SpaceWalk where
  /-- the count is reached: Position -/
  | done (p : Nat)
  /-- a filemark stopped a Space over records: Position and residue -/
  | filemark (p residue : Nat)
  /-- the count left, and the Position reached so far -/
  | more (left p : Nat)
deriving DecidableEq, Repr

/-- Passing objects forward from `p`; the objects at or above `p` are taken in order (R102). -/
def walkForward (kind : SpaceKind) : List (Nat × Bool) → Nat → Nat → SpaceWalk
  | [], left, p => if left = 0 then .done p else .more left p
  | (o, isMark) :: rest, left, p =>
    if left = 0 then .done p
    else if o < p then walkForward kind rest left p
    else match kind, isMark with
      | .records, true => .filemark (o + 1) left
      | .records, false => walkForward kind rest (left - 1) (o + 1)
      | .filemarks, true => if left = 1 then .done (o + 1) else walkForward kind rest (left - 1) (o + 1)
      | .filemarks, false => walkForward kind rest left (o + 1)
      | .eod, _ => walkForward kind rest left (o + 1)

/-- Passing objects backward from `p`; the list is given last object first, and objects at or above `p` are skipped (R102). -/
def walkBackward (kind : SpaceKind) : List (Nat × Bool) → Nat → Nat → SpaceWalk
  | [], left, p => if left = 0 then .done p else .more left p
  | (o, isMark) :: rest, left, p =>
    if left = 0 then .done p
    else if p ≤ o then walkBackward kind rest left p
    else match kind, isMark with
      | .records, true => .filemark o left
      | .records, false => walkBackward kind rest (left - 1) o
      | .filemarks, true => if left = 1 then .done o else walkBackward kind rest (left - 1) o
      | .filemarks, false => walkBackward kind rest left o
      | .eod, _ => walkBackward kind rest left o

/-! ## Locate's wrap, estimate and nominal place (R98) -/

/-- The last Tape Directory entry whose object number is `t` or less. -/
def entryFor (t : Nat) (d : List DirEntry) : Option DirEntry := (d.filter (fun e => e.object ≤ t)).getLast?

/-- The directory entry of a wrap. -/
def entryOfWrap (w : Nat) (d : List DirEntry) : Option DirEntry := d.find? (fun e => e.wrap == w)

/-- The object number at the next entry's first data set, or `endObject` for the last entry. -/
def objectOfNext (e : DirEntry) (d : List DirEntry) (endObject : Nat) : Nat :=
  match entryOfWrap (e.wrap + 1) d with
  | some n => n.object
  | none => endObject

/-- The estimated DSN of R98 step 2. -/
def estimateDsn (t : Nat) (e : DirEntry) (nextObj : Nat) : Nat :=
  if nextObj = e.object then e.firstDsn
  else
    let k := e.firstDsn + (t - e.object) * (e.lastDsn - e.firstDsn + 1) / (nextObj - e.object)
    max e.firstDsn (min k e.lastDsn)

/-- The nominal place of DSN `k` on the wrap of `e` (R98 step 3). -/
def nominalPlace (k : Nat) (e : DirEntry) : Place := (wrapStart e.wrap).forward ((k - e.firstDsn) * dataSetLen)

end Sys2Proof

namespace Sys2Proof.Machine

/-! ## Ranges of command fields -/

/-- The list of Write Records holds 1 to 256 lengths (R79). -/
def badRecordCount (ls : List Nat) : Bool := ls.length = 0 || 256 < ls.length

def badLength (n : Nat) : Bool := n = 0 || 2097152 < n

/-- The first bad entry's place in the list, counted from 1 (R79; assumption log 8). -/
def firstBadLength (ls : List Nat) : Option Nat := (ls.findIdx? badLength).map (· + 1)

/-- 281,474,976,710,655: the largest object number (R21, R99). -/
def maxObject : Nat := 281474976710655

/-- A policy from its code (section Layouts: 1 GRANT, 2 REFUSE, 3 ASK). -/
def policyOf (n : Nat) : Option Policy :=
  if n = 1 then some .grant else if n = 2 then some .refuse else if n = 3 then some .ask else none

def policyCode : Policy → Nat
  | .grant => 1
  | .refuse => 2
  | .ask => 3

/-- On and off from their codes. -/
def switchOf (n : Nat) : Option Bool := if n = 1 then some true else if n = 0 then some false else none

def switchCode (b : Bool) : Nat := if b then 1 else 0

/-- A Drive Address Override from its code: 0..15 a value, 16 none (R185). -/
def overrideOf (n : Nat) : Option (Option Nat) := if n ≤ 15 then some (some n) else if n = 16 then some none else none

def overrideCode : Option Nat → Nat
  | some n => n
  | none => 16

/-- A Link Payload Default within 4,096..65,536 (R185). -/
def payloadOf (n : Nat) : Option Nat := if 4096 ≤ n ∧ n ≤ 65536 then some n else none

/-- The agreed payload size of a HELLO: the lesser of the host's figure and 65,536, raised to 4,096 (R167). -/
def agreedSize (hostMax : Nat) : Nat := max 4096 (min hostMax 65536)

/-- The stages in push order (R135). -/
def stageOrder : List Stage := [.seatLock, .grip, .draw, .wrap, .tension, .acquire]

/-- The attempts each stage is given (R135). -/
def stageAttempts : Stage → Nat
  | .seatLock => 1
  | .grip => 3
  | .draw => 1
  | .wrap => 2
  | .tension => 1
  | .acquire => 3

/-- The number of an event in the table of R175, 1..25. -/
def Event.number : Event → Nat
  | .cartridgeSeated => 1
  | .incompatibleMedium => 2
  | .threadComplete => 3
  | .threadFailed => 4
  | .unthreadComplete => 5
  | .cartridgeEjected => 6
  | .custodyChanged => 7
  | .custodyAsked => 8
  | .operationComplete => 9
  | .earlyWarning => 10
  | .writeFailure => 11
  | .readFailure => 12
  | .directoryInvalid => 13
  | .directoryRebuilt => 14
  | .cmWriteFailed => 15
  | .cleaningAdvised => 16
  | .cleaningRequired => 17
  | .driveReady => 18
  | .cleaningCritical => 19
  | .cleaningDone => 20
  | .cleaningIncomplete => 21
  | .cleaningExpired => 22
  | .equipmentWarning => 23
  | .driveFaulted => 24
  | .linkError => 25

/-- A number that Set Event Mask and Clear Events may name (R176, R177). -/
def eventNumberOk (n : Nat) : Bool := 1 ≤ n && n ≤ 25

end Sys2Proof.Machine
end

