-- ==== Sys2Proof/Machine/Flags.lean ====
section
/-! DEFINITION. Flags: the Event Set's latches, counts, masks and notice-pending flags (R175 to R177), the Condition Level
that the head condition gives and the caps (R122, R155, R156), the sense record's Retry Allowed (R174), the ranks of fault
units and which freeze (R187). -/

namespace Sys2Proof.Machine

/-! ## The Event Set (R175 to R177) -/

/-- One event's flags after a latch (R175). -/
def EventFlags.latch (f : EventFlags) : EventFlags :=
  if f.latched then { f with count := min 255 (f.count + 1) }
  else { f with latched := true, count := 1, pending := f.pending || !f.masked }

/-- One event's flags after a clear (R177): the mask flag stays. -/
def EventFlags.clear (f : EventFlags) : EventFlags := { f with latched := false, count := 0, pending := false }

/-- Masking an event (R176). -/
def EventFlags.mask (f : EventFlags) : EventFlags := { f with masked := true, pending := false }

/-- Unmasking an event: a latched one becomes notice-pending (R176). -/
def EventFlags.unmask (f : EventFlags) : EventFlags := { f with masked := false, pending := f.pending || f.latched }

/-- The flags of the event numbered `n`. -/
def flagsOf (n : Nat) (es : List EventFlags) : EventFlags := es.getD (n - 1) {}

/-- The Event Set with the event numbered `n` changed. -/
def changeEvent (n : Nat) (g : EventFlags → EventFlags) (es : List EventFlags) : List EventFlags := es.modify (n - 1) g

/-- The Event Set with every event of a list of numbers changed. -/
def changeEvents (ns : List Nat) (g : EventFlags → EventFlags) (es : List EventFlags) : List EventFlags :=
  ns.foldl (fun acc n => changeEvent n g acc) es

def anyPending (es : List EventFlags) : Bool := es.any (fun f => f.pending)

/-- The latched and unmasked events with their numbers and counts, in number order (R176). -/
def noticeFrom (n : Nat) : List EventFlags → List (Nat × Nat)
  | [] => []
  | f :: rest => if f.latched && !f.masked then (n, f.count) :: noticeFrom (n + 1) rest else noticeFrom (n + 1) rest

def noticeList (es : List EventFlags) : List (Nat × Nat) := noticeFrom 1 es

def clearPending (es : List EventFlags) : List EventFlags := es.map (fun f => { f with pending := false })

/-- The working mask as a list of 25 flags. -/
def maskOf (es : List EventFlags) : List Bool := es.map (fun f => f.masked)

/-- The Event Set with a stored mask taken back, or with no event masked where the store holds none (R168, R185). A mask
taken back is a change of the mask flags alone (assumption log 9). -/
def withMask (m : Option (List Bool)) (es : List EventFlags) : List EventFlags :=
  match m with
  | none => es.map (fun f => { f with masked := false })
  | some bs => es.zipIdx.map (fun x => { x.1 with masked := bs.getD x.2 false })

/-- One event's flags with the mask flag wanted: an event that it changes for is masked or unmasked (R176). -/
def EventFlags.toMask (wanted : Bool) (f : EventFlags) : EventFlags :=
  if wanted = f.masked then f else if wanted then f.mask else f.unmask

/-- The Event Set with the mask that a value of 25 bits gives, its lowest bit for event 1 (R176, R185; assumption log 30). -/
def withMaskValue (v : Nat) (es : List EventFlags) : List EventFlags :=
  es.zipIdx.map (fun x => x.1.toMask (v.testBit x.2))

/-! ## Head condition (R152 to R156) -/

def Level.rank : Level → Nat
  | .normal => 0
  | .advisory => 1
  | .required => 2
  | .critical => 3

/-- The level that an HCI and a count of Motion Seconds give (R155). -/
def levelOf (hci seconds : Nat) : Level :=
  if 250 ≤ hci then .critical else if 120 ≤ hci then .required
  else if 60 ≤ hci ∨ 540000 ≤ seconds then .advisory else .normal

/-- The condition cap of a level (R156). -/
def levelCap : Level → Nat
  | .normal => 6
  | .advisory => 6
  | .required => 4
  | .critical => 2

/-- The event latched when a level is entered (R155). -/
def levelEvent : Level → Option Event
  | .normal => none
  | .advisory => some .cleaningAdvised
  | .required => some .cleaningRequired
  | .critical => some .cleaningCritical

/-- The events of a rise: that of the level entered, and those of the levels passed over (R155). -/
def riseEvents (old new : Level) : List Event :=
  ([Level.advisory, .required, .critical].filter (fun l => old.rank < l.rank && l.rank ≤ new.rank)).filterMap levelEvent

/-- The index after a sample (R153). -/
def hciAfter (hci sample : Nat) : Nat := (15 * hci + sample) / 16

/-- The sample of a write (a rewrite count) or of a read (frames missing after pass 0) (R92, R152). -/
def sampleOf (n : Nat) : Nat := min 1000 (n * 1000 / 33)

/-- A level from its code in the store; codes above 3 are none of the four (R158). -/
def levelFromCode (n : Nat) : Option Level :=
  if n = 0 then some .normal else if n = 1 then some .advisory else if n = 2 then some .required
  else if n = 3 then some .critical else none

/-! ## Sense records (R174) -/

/-- The outcome code of a reason (section Layouts): 1 NOTED, 2..7 REFUSED by class, 8..10 FAILED by class. -/
def Reason.outcomeCode : Reason → Nat
  | .earlyWarning | .short | .long | .filemark | .endOfData | .beginning | .questionPosted | .notedCmWriteFailed
  | .tooLate => 1
  | .badCommand | .badCount | .badLength | .badDirection | .badObject | .badAttribute | .badValue | .tagInUse | .notFound
  | .noQuestion => 2
  | .stWriteSuspended | .noCustody | .custodyRefused | .incompatibleMedium | .cleaningCartridge | .cmUnreadable
  | .unwrittenData => 3
  | .writeProtected | .readOnlyMedium => 4
  | .notThreaded | .noCartridge | .cleaningRuns | .becomingReady => 5
  | .queueFull | .questionPending | .operationInHand => 6
  | .laterMediumWork | .laterCleaning => 7
  | .writeFailure | .readFailure | .threadFailed | .cmWriteFailed => 8
  | .motionFault | .threader | .driveFaulted => 9
  | .endOfMedium => 10

/-- The reason code within its outcome (section Layouts). -/
def Reason.code : Reason → Nat
  | .earlyWarning => 1 | .short => 2 | .long => 3 | .filemark => 4 | .endOfData => 5 | .beginning => 6
  | .questionPosted => 7 | .notedCmWriteFailed => 8 | .tooLate => 9
  | .badCommand => 1 | .badCount => 2 | .badLength => 3 | .badDirection => 4 | .badObject => 5 | .badAttribute => 6
  | .badValue => 7 | .tagInUse => 8 | .notFound => 9 | .noQuestion => 10
  | .stWriteSuspended => 1 | .noCustody => 2 | .custodyRefused => 3 | .incompatibleMedium => 4 | .cleaningCartridge => 5
  | .cmUnreadable => 6 | .unwrittenData => 7
  | .writeProtected => 1 | .readOnlyMedium => 2
  | .notThreaded => 1 | .noCartridge => 2 | .cleaningRuns => 3 | .becomingReady => 4
  | .queueFull => 1 | .questionPending => 2 | .operationInHand => 3
  | .laterMediumWork => 1 | .laterCleaning => 2
  | .writeFailure => 1 | .readFailure => 2 | .threadFailed => 3 | .cmWriteFailed => 4
  | .motionFault => 1 | .threader => 2 | .driveFaulted => 3
  | .endOfMedium => 1

/-- Retry Allowed where the answering rule does not state it (R174). FAILED MEDIUM depends on whether it is a read. -/
def Reason.retry (r : Reason) : Bool :=
  match r.outcomeCode with
  | 1 | 2 | 4 | 5 | 6 | 7 => true
  | 8 => r == .readFailure
  | _ => false

/-- A sense record with the default Retry Allowed and nothing else. -/
def sense (r : Reason) : Sense := { reason := r, retry := r.retry }

/-- A reply that is a sense record with nothing else. -/
def senseReply (r : Reason) : Reply := { outcome := .sense (sense r) }

def goodReply : Reply := { outcome := .good }

/-! ## Faults (R187, R188) -/

/-- The priority of a unit: 0 is the highest (R187). -/
def FaultUnit.priority : FaultUnit → Nat
  | .bufferMemory => 0
  | .reelDrive => 1
  | .servo => 2
  | .threader => 3
  | .head => 4
  | .compression => 5
  | .cmReader => 6
  | .link => 7

/-- Which units freeze the drive (R187). -/
def FaultUnit.freezes (u : FaultUnit) : Bool := u.priority ≤ 3

/-- The record's suspect unit: the highest-priority unit of its list (R187). -/
def suspectOf : List FaultEntry → Option FaultUnit
  | [] => none
  | e :: rest =>
    match suspectOf rest with
    | none => some e.unit
    | some u => if e.unit.priority ≤ u.priority then some e.unit else some u

/-- The lowest priority (greatest rank) in a list of entries. -/
def lowestPriority (l : List FaultEntry) : Nat := (l.map (fun e => e.unit.priority)).foldl max 0

/-- A full list whose lowest-priority entry, the oldest of them, gives way to the new one; the list stays in the order of report,
so the new entry is its last (R187). -/
def replaceLowest (x : FaultEntry) (low : Nat) : List FaultEntry → List FaultEntry
  | [] => []
  | e :: rest => if e.unit.priority = low then rest ++ [x] else e :: replaceLowest x low rest

/-- A fault entered in a list of at most 4 entries; `none` when it is not entered (R187). -/
def enterFault (x : FaultEntry) (l : List FaultEntry) : Option (List FaultEntry) :=
  if l.length < 4 then some (l ++ [x])
  else if x.unit.priority < lowestPriority l then some (replaceLowest x (lowestPriority l) l)
  else none

/-- The history with one more closed record: it keeps the last 8 (R188). -/
def closeInto (r : ClosedRecord) (h : List ClosedRecord) : List ClosedRecord := (h ++ [r]).drop ((h.length + 1) - 8)

/-! ## The governor's figures (R125, R126) -/

/-- The native rate of a step in kB/s (R111). -/
def nativeRate : Nat → Nat
  | 1 => 40000
  | 2 => 56000
  | 3 => 72000
  | 4 => 96000
  | 5 => 128000
  | _ => 160000

/-- The tape speed of a step in mm/s (R111). -/
def tapeSpeed : Nat → Nat
  | 0 => 0
  | 1 => 2000
  | 2 => 2800
  | 3 => 3600
  | 4 => 4800
  | 5 => 6400
  | 6 => 8000
  | _ => 10000

def clampTo (lo hi n : Nat) : Nat := max lo (min hi n)

/-- CRs after the ratio stage (R125). -/
def ratioStage (crs u c : Nat) : Nat :=
  if 0 < u ∧ 0 < c then (3 * crs + clampTo 256 8192 (256 * u / c)) / 4 else crs

/-- Hs after the rate stage (R125): `b` Link Bytes in `t` microseconds. -/
def rateStage (hs : Option Nat) (b t : Nat) : Option Nat :=
  if 1000 ≤ t then
    let h := min 320000 (b * 1000 / t)
    match hs with
    | none => some h
    | some old => some ((old + h) / 2)
  else hs

/-- The demand and the required rate (R126). -/
def demandOf (hs crs : Nat) : Nat := (hs * 256 + crs - 1) / crs
def requiredRate (hs crs : Nat) : Nat := demandOf hs crs + demandOf hs crs / 16

/-- The lowest step whose native rate is at least the required rate, or 6 (R126). -/
def lowestStep (req : Nat) : Nat :=
  if req ≤ 40000 then 1 else if req ≤ 56000 then 2 else if req ≤ 72000 then 3 else if req ≤ 96000 then 4
  else if req ≤ 128000 then 5 else 6

end Sys2Proof.Machine
end

