-- ==== Sys2Proof/Machine/Compress.lean ====
section
/-! DEFINITION. The token scheme of the Compression Engine: matching in the history window and the greedy choice (R24 to R26),
the token fill and the kind of a part (R29, R30), the shadow decoder and the check decode (R36, R38). -/

namespace Sys2Proof.Machine

/-- A token (R24): a Literal Run of bytes given outright, or a Match. -/
inductive Token where
  | run (bytes : List Byte)
  | copy (len off : Nat)
deriving DecidableEq, Repr

/-- The payload symbols of a token (R24). -/
def Token.syms : Token → List PSym
  | .run bs => .litHead bs.length :: bs.map .raw
  | .copy len off => [.matchByte len off 0, .matchByte len off 1, .matchByte len off 2]

/-- The payload cost of a token (R24). -/
def Token.cost : Token → Nat
  | .run bs => 1 + bs.length
  | .copy _ _ => 3

def tokenSyms (ts : List Token) : List PSym := (ts.map Token.syms).flatten

/-- How many leading bytes of two lists agree, at most `cap`. -/
def agreeing : Nat → List Byte → List Byte → Nat
  | 0, _, _ => 0
  | _ + 1, [], _ => 0
  | _ + 1, _, [] => 0
  | cap + 1, a :: as, b :: bs => if a = b then agreeing cap as bs + 1 else 0

/-- The length of the Match at an offset: the copy reads the window from `off` places back and then the bytes just rebuilt,
which are the input's own (R24). -/
def matchLength (cap off : Nat) (window input : List Byte) : Nat :=
  agreeing cap (window.drop (window.length - off) ++ input) input

/-- The longest Match over the offsets 1..n, the smallest offset among equals (R26): (length, offset). -/
def bestMatch (cap : Nat) (window input : List Byte) : Nat → Nat × Nat
  | 0 => (0, 0)
  | n + 1 =>
    let best := bestMatch cap window input n
    let len := matchLength cap (n + 1) window input
    if best.1 < len then (len, n + 1) else best

/-- The largest offset a Match may carry in a window (R24, R25). -/
def offsetLimit (window : List Byte) : Nat := min 16384 window.length

/-- What a token fill yields (R29): the tokens in order, the bytes covered L, the running cost K, and whether it stopped
because the next token would exceed the payload. -/
structure Fill where
  tokens : List Token
  covered : Nat
  cost : Nat
  overflow : Bool
deriving DecidableEq, Repr

/-- Tokens with the open Literal Run closed. -/
def closeRun (tokens : List Token) (open_ : List Byte) : List Token :=
  if open_.isEmpty then tokens else tokens ++ [.run open_]

/-- The token fill (R26, R29): `room` is the payload still free, `open_` the open Literal Run. The fuel is the number of
input bytes. -/
def fillFrom (room : Nat) : Nat → List Byte → List Byte → List Token → List Byte → Nat → Nat → Fill
  | 0, _, _, tokens, open_, covered, cost => ⟨closeRun tokens open_, covered, cost, false⟩
  | _ + 1, _, [], tokens, open_, covered, cost => ⟨closeRun tokens open_, covered, cost, false⟩
  | fuel + 1, window, b :: rest, tokens, open_, covered, cost =>
    let input := b :: rest
    let m := bestMatch (min 130 input.length) window input (offsetLimit window)
    if 3 ≤ m.1 then
      if cost + 3 ≤ room then
        fillFrom room fuel (window ++ input.take m.1) (input.drop m.1) (closeRun tokens open_ ++ [.copy m.1 m.2]) []
          (covered + m.1) (cost + 3)
      else ⟨closeRun tokens open_, covered, cost, true⟩
    else if open_.isEmpty ∨ open_.length = 64 then
      if cost + 2 ≤ room then
        fillFrom room fuel (window ++ [b]) rest (closeRun tokens open_) [b] (covered + 1) (cost + 2)
      else ⟨closeRun tokens open_, covered, cost, true⟩
    else if cost + 1 ≤ room then
      fillFrom room fuel (window ++ [b]) rest tokens (open_ ++ [b]) (covered + 1) (cost + 1)
    else ⟨closeRun tokens open_, covered, cost, true⟩

/-- The token fill of the bytes of a record from its next unencoded byte (R29). -/
def tokenFill (room : Nat) (window input : List Byte) : Fill := fillFrom room input.length window input [] [] 0 0

/-! ## Decoding (R24, R36, R38) -/

/-- Copying `len` bytes, one at a time, from `off` places back (R24). -/
def copyBack (off : Nat) : Nat → List Byte → List Byte
  | 0, window => window
  | n + 1, window => copyBack off n (window ++ [window.getD (window.length - off) 0])

/-- Decoding a token stream onto a window: `need` bytes are still to be rebuilt, `lits` bytes of an open Literal Run are
still to come, `mat` is a Match whose bytes are still to come. It fails on each of the first four faults of R38. -/
def decodeSyms : List PSym → List Byte → Nat → Nat → Option (Nat × Nat × Nat) → Option (List Byte)
  | [], window, need, lits, mat => if need = 0 ∧ lits = 0 ∧ mat = none then some window else none
  | y :: rest, window, need, lits, mat =>
    match mat, lits, y with
    | some (len, off, k), _, .matchByte len' off' k' =>
      if len' = len ∧ off' = off ∧ k' = k then
        if k = 2 then decodeSyms rest (copyBack off len window) (need - len) 0 none
        else decodeSyms rest window need 0 (some (len, off, k + 1))
      else none
    | some _, _, _ => none
    | none, n + 1, .raw b => decodeSyms rest (window ++ [b]) (need - 1) n none
    | none, _ + 1, _ => none
    | none, 0, .litHead n =>
      if 1 ≤ n ∧ n ≤ 64 ∧ n ≤ need then decodeSyms rest window need n none else none
    | none, 0, .matchByte len off 0 =>
      if 3 ≤ len ∧ len ≤ 130 ∧ 1 ≤ off ∧ off ≤ 16384 ∧ off ≤ window.length ∧ len ≤ need then
        decodeSyms rest window need 0 (some (len, off, 1))
      else none
    | none, 0, _ => none

/-- The bytes of a run of raw symbols; none when a symbol is no raw byte. -/
def rawBytes : List PSym → Option (List Byte)
  | [] => some []
  | .raw b :: rest => (rawBytes rest).map (b :: ·)
  | _ :: _ => none

/-- A part decoded onto a window (R38): the window with its bytes added. -/
def decodePart (p : Part) (syms : List PSym) (history : List Byte) : Option (List Byte) :=
  match p.kind with
  | .stored =>
    if p.slen = p.ulen then
      (rawBytes syms).bind (fun bs => if bs.length = p.ulen then some (history ++ bs) else none)
    else none
  | .compressed => if syms.length = p.slen then decodeSyms syms history p.ulen 0 none else none

/-- A data set decoded part by part in directory order (R38): the uncompressed bytes of each entry. -/
def decodeEntries : List Entry → List PSym → List Byte → Option (List (List Byte))
  | [], _, _ => some []
  | .filemark :: rest, payload, history => (decodeEntries rest payload history).map ([] :: ·)
  | .part p :: rest, payload, history =>
    (decodePart p (payload.take p.slen) history).bind fun history' =>
      (decodeEntries rest (payload.drop p.slen) history').map (history'.drop history.length :: ·)

/-- The whole data set decoded into a fresh window; none is a Format Error (R38). -/
def decodeDataSet (es : List Entry) (payload : List PSym) : Option (List (List Byte)) := decodeEntries es payload []

/-! ## Forming a part (R29, R30, R36) -/

/-- What forming a part gives: a part with its kind, its bytes and its payload symbols, and whether the shadow check
failed; or the number of bytes that may leave the staging buffers while the part waits for more. -/
inductive Forming where
  | part (kind : PartKind) (bytes : List Byte) (syms : List PSym) (shadowFault : Bool)
  | more (taken : Nat)
deriving DecidableEq, Repr

/-- The STORED form of a part: the lesser of the free payload and the remaining bytes (R30). -/
def storedForm (room left : Nat) (avail : List Byte) (fault : Bool) : Forming :=
  let n := min room left
  if n ≤ avail.length then .part .stored (avail.take n) ((avail.take n).map .raw) fault else .more avail.length

/-- Forming the next part of a record (R29, R30, R36). `left` is the record's remaining bytes, `avail` those of them that
have arrived. The part is formed once 130 bytes follow its last token or the record's end has arrived, so the outcome never
depends on how the bytes arrived; until then the bytes at hand join the part being formed (assumption log 10). -/
def formPart (compress shadowAgrees : Bool) (room left : Nat) (window avail : List Byte) : Forming :=
  if compress = false then storedForm room left avail false
  else
    let f := tokenFill room window avail
    if left ≤ avail.length ∨ (f.overflow ∧ f.covered + 130 ≤ avail.length) then
      if 1 ≤ f.covered ∧ f.cost ≤ f.covered then
        let bytes := avail.take f.covered
        let syms := tokenSyms f.tokens
        if shadowAgrees ∧ decodeSyms syms window f.covered 0 none = some (window ++ bytes) then
          .part .compressed bytes syms false
        else storedForm room left avail true
      else storedForm room left avail false
    else .more avail.length

end Sys2Proof.Machine
end

