-- ==== Sys2Proof/Machine/Ops.lean ====
section
/-! DEFINITION. The named operations that more than one command uses and that reach one block each: sending and replying,
latching events, credits, the Fault Register and store writes, the head condition and the speed cap, the governor's
evaluation, and Format Control's bookkeeping. -/

namespace Sys2Proof.Machine

/-! ## Sending (R165, R173, R175, R176) -/

/-- Something leaves the drive. -/
def emit (o : Output) (s : State) : State := { s with out := s.out ++ [o] }

/-- An event is latched (R175). -/
def latch (e : Event) (s : State) : State := { s with events := changeEvent e.number EventFlags.latch s.events }

/-- Events latched one after another. -/
def latchAll (es : List Event) (s : State) : State := es.foldl (fun acc e => latch e acc) s

/-- A Link Error: the event is latched and Link Errors counts it (R166; chapter 9's state table). -/
def linkError (s : State) : State := latch .linkError { s with dlp.linkErrors := s.dlp.linkErrors + 1 }

/-- While the link is UP and a notice-pending flag is set, an Event notice goes out and the flags are cleared (R176). -/
def sendNotices (s : State) : State :=
  if s.dlp.link = .up ∧ anyPending s.events = true then
    emit (.eventNotice (noticeList s.events)) { s with events := clearPending s.events }
  else s

/-- A REPLY frame; the drive sends nothing while the link is not UP (R167, R173). -/
def reply (tag : Tag) (r : Reply) (s : State) : State := if s.dlp.link = .up then emit (.reply tag r) s else s

/-- A tag ceases to be outstanding (R171). -/
def dropTag (tag : Tag) (s : State) : State := { s with dlp.tags := s.dlp.tags.filter (· ≠ tag) }

/-- The Library Port's answer: the port moves to ANSWERING and sends it (R178). -/
def answer (r : LibRecord) (s : State) : State := { s with lbp.line := .answering, lbp.answer := some r }

/-- A Reply record with GOOD, or with a reason and its information (R180). -/
def answerGood (s : State) : State := answer (.reply s.lbp.address none none) s
def answerWith (r : Reason) (info : Option Nat) (s : State) : State := answer (.reply s.lbp.address (some r) info) s

/-! ## Credits (R51) -/

/-- Empty staging buffers: 32 less those filled (R50). -/
def emptyBuffers (s : State) : Nat := 32 - s.dbf.staging.length

/-- While the link is UP, a credit is granted for each empty staging buffer that no outstanding credit covers, in one
Credit message (R51). -/
def grantCredits (s : State) : State :=
  let n := emptyBuffers s - s.dlp.creditsOut
  if s.dlp.link = .up ∧ 0 < n then emit (.credit n) { s with dlp.creditsOut := s.dlp.creditsOut + n } else s

/-! ## Fault Register and Parameter Store (R186, R187) -/

/-- A write of the store begins; writes end in the order in which they began (R186, assumption log 11). -/
def beginStoreWrite (w : StoreWrite) (s : State) : State := { s with pst.writes := s.pst.writes ++ [w] }

/-- The current fault record and the history are copied to the store (R187); the history only once it has been loaded. DESIGN CHOICE: a
record that a Drive Reset closes before the load is cleared in the store as current, and stands in the drive's history alone until the
load, so that a Power-On before it loses the record; R188 does not say when it reaches the stored history (assumption log 61). -/
def copyRecord (s : State) : State :=
  beginStoreWrite (.faults s.frg.current (if s.frg.storeLoaded then some s.pst.history else none)) s

/-- A fault is entered in the current record, opening one if none is open, and the change is copied to the store (R187). -/
def enterRecord (u : FaultUnit) (c : FaultCause) (s : State) : State :=
  match enterFault ⟨u, c, s.timeBase, s.frg.condition, s.moc.motion, s.cah.state⟩ (s.frg.current.getD []) with
  | some l => copyRecord { s with frg.current := some l }
  | none => s

/-- An equipment fault is reported (R187, R188): a freezing unit makes the drive FAULTED and latches Drive Faulted, another
latches Equipment Warning. A Drive Reset in progress ends with the freeze (R183). -/
def reportFault (u : FaultUnit) (c : FaultCause) (s : State) : State :=
  let s := enterRecord u c s
  if u.freezes then latch .driveFaulted { s with frg.condition := .faulted, frg.resetWork := none }
  else latch .equipmentWarning s

/-- The working copies of every setting and the retained items, over what else the store holds (R185, R186). -/
def settingsContent (s : State) : Stored :=
  { s.pst.stored with
    eventMask := some (maskOf s.events)
    readAheadLimit := some s.dbf.readAheadLimit
    compression := some (switchCode s.cpe.switchOn)
    autoThread := some (switchCode s.pst.autoThread)
    libraryPolicy := some (policyCode s.pst.libraryPolicy)
    linkPolicy := some (policyCode s.pst.linkPolicy)
    linkPayload := some s.pst.linkPayload
    addressOverride := some (overrideCode s.pst.addressOverride)
    hci := some s.hcm.hci
    level := some s.hcm.level.rank
    motionSeconds := some s.hcm.motionSeconds }

/-- The monitor hands its three values to the store (R157). -/
def storeRetained (s : State) : State := beginStoreWrite (.retained s.hcm.hci s.hcm.level s.hcm.motionSeconds) s

/-! ## The speed cap and the head condition (R122, R153 to R156) -/

/-- The speed cap: the least of 6, the format cap and the condition cap (R122). -/
def capOf (s : State) : Nat := min 6 (min s.moc.formatCap s.moc.conditionCap)

/-- After a change of the cap: a cap below the target lowers the target at once, clears the pending count, and clears a
Pending Target above the cap (R122). -/
def applyCap (s : State) : State :=
  let cap := capOf s
  if cap < s.sgv.target then
    { s with
      sgv.target := cap
      sgv.pendingCount := 0
      sgv.pendingTarget := match s.sgv.pendingTarget with
        | some p => if cap < p then none else some p
        | none => none }
  else s

def setConditionCap (n : Nat) (s : State) : State := applyCap { s with moc.conditionCap := n }
def setFormatCap (n : Nat) (s : State) : State := applyCap { s with moc.formatCap := n }

/-- A rise of the Condition Level (R155, R156): the condition cap, the Cleaning Call, the events of the level and of those passed
over; a rise to CRITICAL is reported as a HEAD fault (R187). -/
def riseTo (l : Level) (s : State) : State :=
  let s' := setConditionCap (levelCap l) { s with hcm.level := l, hcm.cleaningCall := true }
  let s' := latchAll (riseEvents s.hcm.level l) s'
  if l = .critical then reportFault .head .levelCritical s' else s'

/-- The test of the Condition Level: it only rises (R155). -/
def testLevel (s : State) : State :=
  let l := levelOf s.hcm.hci s.hcm.motionSeconds
  if s.hcm.level.rank < l.rank then riseTo l s else s

/-- A head sample is applied (R152, R153). -/
def headSample (n : Nat) (s : State) : State :=
  testLevel { s with hcm.hci := hciAfter s.hcm.hci n, hcm.samples := s.hcm.samples + 1 }

/-- A whole second of motion is handed to the monitor (R108, R154). -/
def handSecond (s : State) : State :=
  testLevel { s with
    moc.motionTime := s.moc.motionTime - 1000000
    hcm.motionSeconds := min 4294967295 (s.hcm.motionSeconds + 1) }

/-! ## The governor's evaluation (R124 to R127) -/

/-- The comparison of a candidate with the target and the Pending Target (R127). -/
def choose (candidate : Nat) (g : Sgv) : Sgv :=
  if candidate = g.target then { g with pendingTarget := none, pendingCount := 0 }
  else if g.pendingTarget = some candidate ∧ g.pendingCount = 1 then
    { g with target := candidate, pendingTarget := none, pendingCount := 0 }
  else { g with pendingTarget := some candidate, pendingCount := 1 }

/-- The stages of an evaluation from U, C, the Link Bytes, the time t, the cap and the present time (R124 to R127). -/
def evaluateWith (u c bytes t cap now : Nat) (g : Sgv) : Sgv :=
  let g := { g with mark := now, crs := ratioStage g.crs u c, hs := rateStage g.hs bytes t }
  match g.hs with
  | none => g
  | some hs => choose (min (lowestStep (requiredRate hs g.crs)) cap) g

/-- An evaluation at a write-side close (`subtract` Held Time) or a read-side delivery (`subtract` Starved Time): Held Time,
Link Bytes and Starved Time return to 0 (R52, R53, R124). -/
def evaluate (subtract u c : Nat) (s : State) : State :=
  { s with
    sgv := evaluateWith u c s.dlp.linkBytes (s.timeBase - s.sgv.mark - subtract) (capOf s) s.timeBase s.sgv
    dlp.heldTime := 0
    dlp.linkBytes := 0
    dbf.starvedTime := 0 }

/-! ## Format Control (R10, R12, R13, R18 to R21) -/

/-- The records held: accepted and neither committed nor discarded (R21). -/
def held (s : State) : Nat := s.fmc.accepted - s.fmc.committed - s.fmc.discarded

/-- Early Warning is set from the EOD position; the event is raised when it comes to hold (R10). -/
def setEarlyWarning (s : State) : State :=
  let w := earlyWarningAt s.fmc.eod
  let s' := { s with fmc.earlyWarning := w }
  if w = true ∧ s.fmc.earlyWarning = false then latch .earlyWarning s' else s'

/-- The Tape Directory after the commit of data set `d` on wrap `w` (R12); `unended` says how `d` ends. -/
def directoryCommit (w d object filemarks : Nat) (unended : Bool) (dir : List DirEntry) : List DirEntry :=
  match dir.getLast? with
  | some e =>
    if e.wrap = w then dir.dropLast ++ [{ e with lastDsn := d, unended := unended }]
    else dir ++ [⟨w, d, d, object, filemarks, unended⟩]
  | none => [⟨w, d, d, object, filemarks, unended⟩]

/-- Format Control at the commit of a slot's data set (R12, R13, R71 step 1). -/
def formatCommit (d : Slot) (s : State) : State :=
  let place := match d.endPlace with | some p => p | none => s.wch.nextPlace
  let first := d.firstObject.getD 0
  setEarlyWarning { s with
    fmc.directory := directoryCommit place.wrap d.dsn first s.fmc.filemarks (lastUnended d.entries) s.fmc.directory
    fmc.eod := ⟨place.wrap, (place.next).lpos, some d.dsn, objectAfter first d.entries, lastUnended d.entries⟩
    fmc.filemarks := s.fmc.filemarks + countFilemarks d.entries
    fmc.committed := s.fmc.committed + countEnds (d.entries.drop d.carried) }

/-- Overwrite from BOT (R18). -/
def overwriteFromBot (s : State) : State :=
  setEarlyWarning { s with
    fmc.directory := []
    fmc.eod := EodPos.empty
    fmc.filemarks := 0
    fmc.nextDsn := 0
    fmc.nextObject := 0
    fmc.directoryValid := true
    wch.eodCurrent := false
    wch.nextPlace := EodPos.empty.place }

/-- The Tape Directory truncated at data set `d` on wrap `w` (R19); `unended` says how the data set before `d` ends. -/
def truncateDirectory (w d : Nat) (unended : Bool) (dir : List DirEntry) : List DirEntry :=
  (dir.filter (fun e => e.wrap ≤ w)).filterMap fun e =>
    if e.wrap = w then (if e.firstDsn = d then none else some { e with lastDsn := d - 1, unended := unended }) else some e

/-- The map truncated at data set `d`, which began at a place with a first object number; `marks` are the filemarks below
that object, `n` the object the host writes next, and `unended` says that the data set before ends with an unended part (R19). -/
def truncateMap (d first marks n : Nat) (unended : Bool) (place : Place) (s : State) : State :=
  setEarlyWarning { s with
    fmc.directory := truncateDirectory place.wrap d unended s.fmc.directory
    fmc.eod := ⟨place.wrap, place.lpos, if d = 0 then none else some (d - 1), first, unended⟩
    fmc.filemarks := marks
    fmc.nextDsn := d
    fmc.nextObject := n
    wch.eodCurrent := false
    wch.nextPlace := place }

/-- The append case of R19. While an EOD frame is still to be written or verified, its next copy keeps its place (R77): the end of
that EOD brings the head back to the EOD position's place. -/
def appendAtEod (s : State) : State :=
  { s with
    fmc.nextDsn := match s.fmc.eod.lastDsn with | some d => d + 1 | none => 0
    fmc.nextObject := s.fmc.eod.nextObject
    wch.nextPlace := if s.wch.eodPlan.isSome then s.wch.nextPlace else s.fmc.eod.place }

/-- The numbering set back to the end of data at a discard, with the records held counted as Discarded (R20, R21). -/
def discardNumbering (s : State) : State :=
  setEarlyWarning { s with
    fmc.discarded := s.fmc.discarded + held s
    fmc.nextDsn := match s.fmc.eod.lastDsn with | some d => d + 1 | none => 0
    fmc.nextObject := s.fmc.eod.nextObject
    fmc.position := s.fmc.eod.nextObject }

/-- The empty table and EOD position with Directory Valid clear (R14); the EOD position moves, so Early Warning is set (R10). -/
def forgetDirectory (s : State) : State :=
  setEarlyWarning
    { s with fmc.directory := [], fmc.eod := EodPos.empty, fmc.directoryValid := false, fmc.filemarks := 0 }

/-- The end of data for a reader: with Directory Valid set, the EOD position's next object number (R1). -/
def atEndOfData (o : Nat) (s : State) : Bool := s.fmc.directoryValid && s.fmc.eod.nextObject ≤ o

/-! ## Questions the blocks ask one another -/

/-- The write side holds no data: no write-side slot, no object waiting for the engine but dropped ones, no carried entry
(R46, R49). -/
def Intake.live : Intake → Bool
  | .filemark _ => true
  | .record _ _ _ _ _ _ dropped => !dropped

def writeSideEmpty (s : State) : Bool :=
  s.dbf.writeRing.isEmpty && s.cpe.intake.all (fun x => !x.live) && s.cpe.carryEntries.isEmpty

/-- FREE slots (R43). -/
def freeSlots (s : State) : Nat := 128 - s.dbf.writeRing.length - s.dbf.readRing.length

def countState (x : SlotState) (ring : List Slot) : Nat := (ring.filter (fun d => d.state == x)).length

/-- The number of slots in each state, in the order of R43's table (R43). -/
def slotCounts (s : State) : List Nat :=
  [freeSlots s, countState .filling s.dbf.writeRing, countState .pending s.dbf.writeRing,
    countState .writing s.dbf.writeRing, countState .reading s.dbf.readRing, countState .ready s.dbf.readRing,
    countState .draining s.dbf.readRing]

/-- The writer has frames or an EOD frame in hand. -/
def writerBusy (s : State) : Bool :=
  s.wch.writer == .starting || s.wch.writer == .writing || s.wch.writer == .ending

/-- A Data Link medium command is executing or queued (R136, R147). -/
def mediumWork (s : State) : Bool := !s.dlp.queue.isEmpty

/-- A media operation ordered by the Library Port is in hand (R136). -/
def libraryOperation (s : State) : Bool :=
  match s.cah.mediaOp with
  | some op => op.orderer == .library
  | none => false

/-- The command at the head of the Medium Queue. -/
def headEntry (s : State) : Option QEntry := s.dlp.queue.head?

/-- A Write Records or Write Filemarks is executing (R47). -/
def writeExecuting (s : State) : Bool :=
  match s.dlp.run.phase, s.dlp.queue.head? with
  | .notBegun, _ => false
  | .waitMedia, _ => false
  | _, some ⟨_, .writeRecords _ _⟩ => true
  | _, some ⟨_, .writeFilemarks _ _⟩ => true
  | _, _ => false

/-- A Read Records does its own work: it delivers (R100). -/
def readExecuting (s : State) : Bool := s.dlp.run.phase == .reading

/-- A Read Records is executing from its taking, through the wait on its flush (R53, R171). -/
def readInHand (s : State) : Bool :=
  readExecuting s || (match s.dlp.run.phase, s.dlp.queue.head? with
    | .waitFlush, some ⟨_, .readRecords _ _⟩ => true
    | _, _ => false)

/-- The last wrap of the seated cartridge (R8, R106). -/
def lastWrap (s : State) : Nat :=
  lastWrapOf (match s.cah.image with | some i => i.level == 3 | none => false)

/-- The full stack (R130, R135). -/
def stackFull (s : State) : Bool := s.cah.stack.length == 6

end Sys2Proof.Machine
end

