-- ==== Sys2Proof/Machine/Motion.lean ====
section
/-! DEFINITION. The Motion Controller's operations (R108 to R121, R128): phases, requests, the end of an operation, the stop,
the speed change, the response to a Servo Lost. What the drive does when the tape has come to rest or streams is said where
the events of the motion family are (Machine/MotionEvents.lean). -/

namespace Sys2Proof.Machine

/-- The place under the head, as the Motion Controller has it. -/
def here (s : State) : Place := ⟨s.moc.wrap.getD 0, s.moc.lpos.getD 0⟩

/-- BOT is the run-up point for LPOS 10,000 on wrap 0 (R116). -/
def botPlace : Place := wrapStart 0

/-- Motion requests are refused in HALTED and RELAXED (R112). -/
def canMove (s : State) : Bool := s.moc.motion != .halted && s.moc.motion != .relaxed

/-- The moving states, in which Motion time accrues (R108). -/
def Motion.moving : Motion → Bool
  | .ramping | .streaming | .seeking | .backhitch | .turnaround => true
  | _ => false

/-- The state STOPPED: the rest timer starts from 0 (R109, R114). -/
def comeToRest (s : State) : State := { s with moc.motion := .stopped, moc.step := 0, moc.restTimer := 0 }

/-- The first phase of an operation begins, and its time runs from 0. A ramp to the governor's target takes the target as it stands
(R113), and it leaves the run-up point at which the tape stood; a seek ramps up first (R116), and it returns the Servo Lost Count to 0
unless it begins again in a resume step (R119); the run to BOT of a recovery goes toward low LPOS (R184). -/
def enterPhase (op : Operation) (s : State) : State :=
  let s := { s with moc.phaseTime := 0 }
  match op.plan with
  | [] => s
  | .retension :: _ => { s with moc.operation := some op }
  | .ramp k :: rest =>
    { s with
      moc.operation := some { op with plan := .ramp (some (k.getD s.sgv.target)) :: rest }
      moc.motion := .ramping
      moc.restsFor := none
      moc.watch := 0 }
  | .backhitch :: _ =>
    { s with moc.operation := some op, moc.motion := .backhitch, moc.backhitches := s.moc.backhitches + 1 }
  | .seek :: _ =>
    { s with
      moc.operation := some op
      moc.motion := .ramping
      moc.restsFor := none
      moc.towardHigh := match op.aim with | some p => s.moc.lpos.getD 0 ≤ p.lpos | none => true
      moc.watch := 0
      moc.servoLost := if op.reacquiring then s.moc.servoLost else 0 }
  | .turnaround :: _ =>
    { s with
      moc.operation := some op
      moc.motion := .turnaround
      moc.restsFor := none
      moc.turnarounds := s.moc.turnarounds + 1 }
  | .markRun :: _ =>
    { s with moc.operation := some op, moc.motion := .streaming, moc.marks := 0, moc.watch := 0 }
  | .slowRun :: _ =>
    { s with moc.operation := some op, moc.motion := .streaming, moc.towardHigh := false, moc.watch := 0 }

/-- What the end of an operation leaves: nothing yet, the tape streaming for a work, or the tape at rest after a work. -/
inductive MotionEnd where
  | none
  | streaming (w : Work)
  | rested (w : Work)
deriving DecidableEq, Repr

/-- The direction in which a work takes the tape along a wrap: the wrap's own, but against it in a backward scan, and toward low LPOS in
the run to BOT of a recovery (R8, R97, R184). DESIGN CHOICE: the direction of work of a seek, in which the 500 mm of R120 and the run for
the four marks are made, is that of the wrap under the head, whichever way the seek ran (assumption log 60). -/
def workDirection (w : Work) (wrap : Nat) (s : State) : Bool :=
  let along := decide (wrap % 2 = 0)
  match w, s.rch.scan with
  | .recoveryRewind, _ => false
  | .scanning, some c => if c.forward then along else !along
  | _, _ => along

/-- The running phase ends: the next one begins, or the operation ends (R112). -/
def advance (s : State) : State × MotionEnd :=
  match s.moc.operation with
  | none => (s, .none)
  | some op =>
    match op.plan with
    | _ :: p :: rest => (enterPhase { op with plan := p :: rest } s, .none)
    | _ =>
      let s := { s with moc.operation := none, moc.work := op.work }
      if s.moc.step = 0 then (comeToRest s, .rested op.work)
      else
        ({ s with
            moc.motion := .streaming
            moc.restsFor := none
            moc.towardHigh := workDirection op.work (s.moc.wrap.getD 0) s
            moc.watch := 0 }, .streaming op.work)

/-- The tape stands within 2,000 mm of a place on the same wrap (R113). -/
def nearPlace (p : Place) (s : State) : Bool :=
  match s.moc.wrap, s.moc.lpos with
  | some w, some l => w == p.wrap && (if l ≤ p.lpos then p.lpos - l else l - p.lpos) ≤ 200000
  | _, _ => false

/-- The phases of a request from where the tape stands (R113, R115, R116). -/
def planFor (r : MotionReq) (s : State) : List Phase :=
  match r.kind with
  | .seek => [.seek]
  | .backhitch => [.backhitch]
  | .stream =>
    if (s.moc.motion = .stopped ∨ s.moc.motion = .resting) ∧ s.moc.restsFor = some r.aim then [.ramp r.step]
    else if nearPlace r.aim s then [.backhitch, .ramp r.step]
    else [.seek, .ramp r.step]

/-- A request begins: from RESTING, full tension is restored first (R109). -/
def beginRequest (r : MotionReq) (s : State) : State :=
  let plan := planFor r s
  enterPhase ⟨r.work, some r.aim, if s.moc.motion = .resting then .retension :: plan else plan, false⟩ s

/-- The phases of an operation aimed at the place of a request, as they meet the request; `target` is the governor's target (R112, R113).
Where they bring the tape to the run-up point, the operation ends with the ramp to the request's step, in place of another that has not
begun; a ramp that runs meets a request of its own step alone. A request for a backhitch is met by a backhitch or a turnaround that ends
there. -/
def metPlan (r : MotionReq) (target : Nat) (plan : List Phase) : Option (List Phase) :=
  match r.kind, plan.getLast? with
  | .backhitch, _ => if plan = [.backhitch] ∨ plan = [.turnaround] then some plan else none
  | .stream, some (.ramp (some 0)) => none
  | .stream, some (.ramp k) =>
    if plan.length = 1 then (if k = some (r.step.getD target) then some plan else none)
    else some (plan.dropLast ++ [.ramp r.step])
  | .stream, some .backhitch | .stream, some .turnaround | .stream, some .seek => some (plan ++ [.ramp r.step])
  | _, _ => none

/-- The phases with which the operation in progress meets a request, where it is aimed at the same place (R112, R113). -/
def meetsRequest (r : MotionReq) (op : Operation) (s : State) : Option (List Phase) :=
  if op.aim = some r.aim then metPlan r s.sgv.target op.plan else none

/-- A motion request (R112): begun at once, met by the operation in progress, or made the Waiting request; refused in
HALTED and RELAXED. -/
def request (r : MotionReq) (s : State) : State :=
  if canMove s = false then s
  else match s.moc.operation with
  | none => beginRequest r s
  | some op =>
    match meetsRequest r op s with
    | some plan => { s with moc.operation := some { op with work := r.work, plan := plan } }
    | none => { s with moc.waiting := some r }

/-- A start to stream at a place (R113). -/
def startStream (w : Work) (p : Place) (step : Option Nat) (s : State) : State := request ⟨.stream, w, p, step⟩ s

/-- A seek to the run-up point of a place (R116). -/
def startSeek (w : Work) (p : Place) (s : State) : State := request ⟨.seek, w, p, none⟩ s

/-- A backhitch to the run-up point of a place (R115). -/
def startBackhitch (w : Work) (p : Place) (s : State) : State := request ⟨.backhitch, w, p, none⟩ s

/-- The Waiting request begins when no operation is in progress (R112). -/
def beginWaiting (s : State) : State :=
  match s.moc.operation, s.moc.waiting with
  | none, some r => if canMove s then beginRequest r { s with moc.waiting := none } else { s with moc.waiting := none }
  | _, _ => s

/-- The backhitch under way is the one of 500 mm that a reacquisition begins with, and it is aimed at no place (R120). -/
def Operation.reruns (op : Operation) : Bool := op.plan.contains .markRun

/-- A stop (R114): the tape ramps to 0 from where it is. In a backhitch, a turnaround or a re-tension the tape stays at rest
when that ends (R109, R115); a seek ramps to 0 at once (R116). -/
def stopTape (s : State) : State :=
  let s := { s with moc.waiting := none }
  match s.moc.operation with
  | none =>
    if s.moc.motion = .streaming ∨ s.moc.motion = .seeking then
      enterPhase ⟨.stopping, none, [.ramp (some 0)], false⟩ s
    else s
  | some op =>
    match op.plan with
    | .backhitch :: _ =>
      { s with moc.operation := some { op with
          work := .stopping, aim := if op.reruns then none else op.aim, plan := [.backhitch] } }
    | .turnaround :: _ => { s with moc.operation := some { op with work := .stopping, plan := [.turnaround] } }
    | .retension :: _ => { s with moc.operation := some { op with work := .stopping, plan := [.retension] } }
    | .ramp (some 0) :: _ => { s with moc.operation := some { op with work := .stopping, plan := [.ramp (some 0)] } }
    | .ramp k :: _ => { s with moc.operation := some { op with work := .stopping, plan := [.ramp k, .ramp (some 0)] } }
    | _ => enterPhase ⟨.stopping, none, [.ramp (some 0)], false⟩ s

/-- The stop at an Abort: in a recovery ladder it comes at once, and a ramp up goes no further (R96, R112). -/
def stopForAbort (s : State) : State :=
  match s.rch.duty, s.moc.operation.bind (fun op => op.plan.head?) with
  | .recover, some (.ramp k) =>
    if k = some 0 then stopTape s else enterPhase ⟨.stopping, none, [.ramp (some 0)], false⟩ { s with moc.waiting := none }
  | _, _ => stopTape s

/-- The writer's own stop (R55, R74, R84): the tape stops where it moves for writing, and a request of the writer that waits is dropped;
a motion made for other work goes on, and so does a request of another that waits (R112). -/
def stopWriting (s : State) : State :=
  let others := s.moc.waiting.filter (fun r => r.work != .writing)
  let under : Bool := match s.moc.operation with
    | some op => op.work == .writing
    | none => s.moc.work == .writing
  if under then { stopTape s with moc.waiting := others } else { s with moc.waiting := others }

/-- A turnaround to a wrap, ending at the run-up point before a place on it, and the ramp that follows (R117). -/
def turnTo (w : Work) (p : Place) (step : Option Nat) (s : State) : State :=
  enterPhase ⟨w, some p, [.turnaround, .ramp step], false⟩ s

/-- A speed change at a data set boundary (R128). -/
def speedChange (w : Work) (p : Place) (s : State) : State :=
  enterPhase ⟨w, some p, [.ramp none, .backhitch, .ramp none], false⟩
    { s with moc.speedChanges := s.moc.speedChanges + 1 }

/-- The step of a header scan or a Rebuild pass: 6, limited to the cap as it stands when the scan begins (R111). -/
def scanStep (s : State) : Nat := min 6 (capOf s)

/-- The step at which the work in hand goes on after a reacquisition (R120): that of a scan or a pass is the one it began with (R111). -/
def resumeStep (w : Work) (s : State) : Option Nat :=
  match w with
  | .scanning => s.rch.scan.map (fun c => c.step)
  | .rebuilding => s.rch.rebuild.map (fun r => r.step)
  | .cleaningRun => some 1
  | .collecting => if s.rch.duty = .recover then some s.rch.passStep else none
  | _ => none

/-- Where the collection in hand wants the head: the copy start in RECOVER, the Resume Place in COLLECT (R89, R94). -/
def collectPlace (s : State) : Place :=
  match s.rch.duty, s.rch.current.bind (fun c => c.copyStart) with
  | .recover, some p => p
  | _, _ => s.rch.resume.getD (here s)

/-- The place where the work in hand goes on after a reacquisition (R120): for writing the place after the last place used, for
collecting that of the first frame not taken, for a scan or a pass that of the last header read. DESIGN CHOICE: with no header read yet, a
scan goes on from the place under the head, and a Rebuild pass from BOT; R120 names no place for them (assumption log 60). -/
def resumePlace (w : Work) (s : State) : Place :=
  match w with
  | .writing => s.wch.nextPlace
  | .collecting => (match s.rch.lastTaken with | some p => p.next | none => collectPlace s)
  | .scanning => (s.rch.scan.bind (fun c => c.lastRead)).getD (here s)
  | .rebuilding => (s.rch.rebuild.bind (fun r => r.lastRead)).getD botPlace
  | .cleaningRun => ⟨0, 1000000 + s.cah.sect * 1500000 + s.cah.runLength * 100⟩
  | _ => here s

/-- The push of the Acquire stage is in progress (R135). -/
def acquireStage (s : State) : Bool :=
  match s.cah.stageWork with
  | some w => w.stage == .acquire && w.push
  | none => false

/-- The phases that follow the four marks of a reacquisition (R120): a seek begins again, other work is met at its place. The servo
acquisition of a recovery ends at rest, and its run to BOT turns the tape around first (R184). -/
def resumePlan (s : State) : Work × Place × List Phase :=
  match s.moc.operation with
  | some op =>
    match op.work, op.plan with
    | .acquiring, _ => (.acquiring, here s, [.ramp (some 0)])
    | .recoveryRewind, _ => (.recoveryRewind, op.aim.getD (here s), [.ramp (some 0), .ramp (some 1), .slowRun])
    | w, .seek :: rest => (w, op.aim.getD (here s), .seek :: rest)
    | w, .ramp (some 0) :: _ => (w, here s, [.ramp (some 0)])
    | w, _ => (w, op.aim.getD (resumePlace w s), [.backhitch, .ramp (resumeStep w s)])
  | none => (s.moc.work, resumePlace s.moc.work s, [.backhitch, .ramp (resumeStep s.moc.work s)])

/-- The response to the first Servo Lost of a data set unit (R120): stop, the reacquisition run, and the resumption. -/
def reacquire (s : State) : State :=
  let (w, p, plan) := resumePlan s
  enterPhase ⟨w, some p, [.ramp (some 0), .backhitch, .ramp (some 1), .markRun] ++ plan, true⟩
    { s with moc.servoLost := 1, moc.servoLosts := s.moc.servoLosts + 1 }

/-- The head follows the servo tracks and reads marks: in STREAMING, SEEKING and RAMPING, but not in the first step of the response
to a Servo Lost, the ramp to 0 that comes before the run for the four marks (R118, R119, R120). -/
def marksPass (s : State) : Bool :=
  (s.moc.motion == .streaming || s.moc.motion == .seeking || s.moc.motion == .ramping) &&
  (match s.moc.operation with
   | some op => !(op.reacquiring && op.plan.head? == some (.ramp (some 0)) && op.reruns)
   | none => true)

/-- The phase that is running. -/
def runningPhase (s : State) : Option Phase := s.moc.operation.bind (fun op => op.plan.head?)

/-- The step to which the ramp in hand goes (R110): a seek ramps up to 7, and from 7 to 0 (R116); the run to BOT of a recovery ramps
from 1 to 0 (R184). -/
def rampTarget (s : State) : Option Nat :=
  match runningPhase s with
  | some (.ramp k) => k
  | some .seek => some (if s.moc.step = 7 then 0 else 7)
  | some .slowRun => some 0
  | _ => none

/-- The first step of a ramp up from 0, or the last step of a ramp down to 0, each of 250 ms, in which the watch is not armed
(R110, R119). -/
def slowStep (s : State) : Bool :=
  s.moc.motion == .ramping &&
  (match rampTarget s with
   | some 0 => decide ((s.moc.step - 1) * 250000 ≤ s.moc.phaseTime)
   | some _ => s.moc.step == 0 && decide (s.moc.phaseTime < 250000)
   | none => false)

/-- The servo watch is armed where marks pass, but not in the first step of a ramp up from 0 or the last of a ramp down to 0 (R119). -/
def servoArmed (s : State) : Bool := marksPass s && !slowStep s

/-- A seek streams at step 7, or ramps down from it (R116). -/
def seekAtSpeed (s : State) : Bool :=
  runningPhase s == some .seek && s.moc.step == 7 && (s.moc.motion == .seeking || s.moc.motion == .ramping)

/-- The tape stands within a distance of the aim of the operation in progress. -/
def withinReach (d : Nat) (s : State) : Bool :=
  match s.moc.operation.bind (fun op => op.aim), s.moc.lpos with
  | some p, some l => decide ((if l ≤ p.lpos then p.lpos - l else l - p.lpos) ≤ d)
  | _, _ => false

/-- The tape in SEEKING, or in the run to BOT of a recovery, has come so near the aim that the ramp down begins (R110, R116, R184). -/
def seekNears (s : State) : Bool :=
  (runningPhase s == some .seek && s.moc.motion == .seeking && withinReach Config.seekReach s)
    || (runningPhase s == some .slowRun && s.moc.motion == .streaming && withinReach Config.slowRunReach s)

/-- The ramp down of a seek, or of the run to BOT of a recovery, begins where the aim is near enough (R108, R110, R116). -/
def settleSeek (s : State) : State :=
  if seekNears s then { s with moc.motion := .ramping, moc.watch := 0, moc.phaseTime := 0 } else s

/-! ## The position (R118) -/

/-- The LPOS that a motion reports: once a Motion Fault has made the LPOS unknown, it stays so until a reacquisition succeeds. -/
def knownLpos (l : Nat) (s : State) : Option Nat := s.moc.lpos.map (fun _ => l)

/-- How far the tape moves in a microsecond at the present step, added to what has accrued: whole hundredths of a millimetre, and
the rest (R111, R118). -/
def driftAfter (s : State) : Nat := s.moc.drift + tapeSpeed s.moc.step

/-- The LPOS between marks, interpolated from the tape speed over a microsecond, where marks are read: in STREAMING, SEEKING and RAMPING
(R118). In a ramp the tape speed is that of the current step, which changes at the ramp's end (R110; assumption log 22). -/
def interpolate (s : State) : State :=
  if s.moc.motion = .streaming ∨ s.moc.motion = .seeking ∨ s.moc.motion = .ramping then
    { s with
      moc.drift := driftAfter s % 10000
      moc.lpos := s.moc.lpos.map fun l =>
        if s.moc.towardHigh then min 98000000 (l + driftAfter s / 10000) else l - driftAfter s / 10000 }
  else s

/-- An attempt of a thread's Acquire stage is in progress: its timeout bounds it, and nothing in it is a Motion Fault (R135, R163). -/
def threadAcquires (s : State) : Bool := acquireStage s && !s.cah.recovering

/-- A timed operation is in progress: a re-tension, a ramp, a backhitch, a turnaround, or a ramp of a seek (R121). -/
def timedOperation (s : State) : Bool :=
  !threadAcquires s &&
  match s.moc.operation with
  | some op => (match op.plan with
    | .markRun :: _ => false
    | .slowRun :: _ => s.moc.motion == .ramping
    | .seek :: _ => s.moc.motion == .ramping
    | [] => false
    | _ => true)
  | none => false

/-- The tape after a Motion Fault: braked in HALTED, LPOS unknown, nothing in progress (R121). -/
def haltTape (s : State) : State :=
  { s with
    moc.motion := .halted
    moc.step := 0
    moc.lpos := none
    moc.operation := none
    moc.waiting := none
    moc.restsFor := none }

/-- The tape stands at BOT: wrap 0, at the run-up point for LPOS 10,000 (R116, R118). -/
def atBot (s : State) : State := { s with moc.wrap := some 0, moc.restsFor := some botPlace, moc.towardHigh := true }

end Sys2Proof.Machine
end

