-- ==== Sys2Proof/Machine/Buffer.lean ====
section
/-! DEFINITION. The Data Buffer's rings, direction and Staging FIFO (R43 to R61), the end of the command at the head of the
Medium Queue with its reply (R105, R171, R173), and the report of a deferred failure (R76). -/

namespace Sys2Proof.Machine

/-! ## The head of the Medium Queue -/

/-- The command at the head ends: its reply is sent, or kept as the Last Immediate Result, and its tag ceases to be
outstanding; a command ended by a Link Reset is not answered (R105, R168, R171). -/
def finishHead (r : Reply) (s : State) : State :=
  match s.dlp.queue with
  | [] => s
  | q :: rest =>
    let s :=
      if s.dlp.run.answered then
        latch .operationComplete { s with rch.lastImmediate := some ⟨r.outcome, s.fmc.position⟩ }
      else if s.dlp.run.mute then s
      else reply q.tag r s
    let s' := { s with dlp.queue := rest, dlp.run := {} }
    if s.dlp.run.mute then s' else dropTag q.tag s'

/-- A command with Immediate is answered GOOD early and stays at the head (R105). -/
def answerEarly (s : State) : State :=
  match s.dlp.queue with
  | [] => s
  | q :: _ =>
    let s := if s.dlp.run.mute then s else reply q.tag { outcome := .good, results := .position s.fmc.position } s
    { s with dlp.run.answered := true }

/-- The results that a reply to a medium command carries, with `n` as its figure (R60, R80, R82, R99, R100, R102 to R104). -/
def resultsOf (c : MedCmd) (n : Nat) (s : State) : Results :=
  match c with
  | .writeRecords _ _ => .records n s.fmc.position
  | .readRecords _ _ => .records n s.fmc.position
  | .writeFilemarks _ _ => .position s.fmc.position
  | .space _ _ _ _ => .position s.fmc.position
  | .locate _ _ => .position s.fmc.position
  | .rewind _ => .position s.fmc.position
  | .rebuildDirectory => .position s.fmc.position
  | .discardBuffer => .discarded n
  | .flush | .thread | .unthread _ | .eject => .none

/-- The figure of the command at the head: the records Accepted, delivered or discarded under it. -/
def headFigure (c : MedCmd) (s : State) : Nat :=
  match c with
  | .readRecords _ _ => s.dlp.run.delivered
  | _ => s.dlp.run.accepted

/-- The command at the head ends with an outcome and the results of its kind. -/
def endHead (o : OutcomeBlock) (s : State) : State :=
  match s.dlp.queue with
  | [] => s
  | q :: _ => finishHead ⟨o, resultsOf q.cmd (headFigure q.cmd s) s⟩ s

/-- The head enters a phase. -/
def setPhase (p : HeadPhase) (s : State) : State := { s with dlp.run.phase := p }

/-- A sense record whose information is the Position (R100, R121). -/
def senseAtPosition (r : Reason) (s : State) : Sense := { sense r with info := some s.fmc.position }

/-- The outcome of a write-type command that succeeds: GOOD, or NOTED/Early Warning while it holds (R10, R80). -/
def writeOutcome (s : State) : OutcomeBlock :=
  if s.fmc.earlyWarning then .sense (sense .earlyWarning) else .good

/-- FAILED EQUIPMENT/Drive Faulted with the record's suspect unit (R188). -/
def faultedBlock (s : State) : OutcomeBlock :=
  .sense { sense .driveFaulted with unit := suspectOf (s.frg.current.getD []) }

/-! ## Rings and direction -/

/-- Changing the FILLING slot, which stands at the write ring's tail (R46). -/
def changeFilling (f : Slot → Slot) (s : State) : State :=
  { s with dbf.writeRing := s.dbf.writeRing.map (fun d => if d.state = .filling then f d else d) }

/-- Changing the write-side slot of a DSN. -/
def changeWrite (dsn : Nat) (f : Slot → Slot) (s : State) : State :=
  { s with dbf.writeRing := s.dbf.writeRing.map (fun d => if d.dsn = dsn then f d else d) }

/-- Changing the read-side slot of a DSN. -/
def changeRead (dsn : Nat) (f : Slot → Slot) (s : State) : State :=
  { s with dbf.readRing := s.dbf.readRing.map (fun d => if d.dsn = dsn then f d else d) }

def fillingSlot (s : State) : Option Slot := s.dbf.writeRing.find? (fun d => d.state == .filling)
def drainingSlot (s : State) : Option Slot := s.dbf.readRing.find? (fun d => d.state == .draining)
def readingSlot (s : State) : Option Slot := s.dbf.readRing.find? (fun d => d.state == .reading)
def writeSlot (dsn : Nat) (s : State) : Option Slot := s.dbf.writeRing.find? (fun d => d.dsn == dsn)
def readSlot (dsn : Nat) (s : State) : Option Slot := s.dbf.readRing.find? (fun d => d.dsn == dsn)

/-- The direction becomes NEUTRAL when the write side has emptied and no write-type command executes, and when the last
read-side slot has become FREE (R47). -/
def settleDirection (s : State) : State :=
  match s.dbf.direction with
  | .write => if writeSideEmpty s && !writeExecuting s then { s with dbf.direction := .neutral } else s
  | .read => if s.dbf.readRing.isEmpty then { s with dbf.direction := .neutral } else s
  | .neutral => s

/-- The engine stops unpacking: window emptied, IDLE (R23, R48). -/
def stopUnpacking (s : State) : State :=
  if s.cpe.engine = .unpacking then { s with cpe.engine := .idle, cpe.window := [], cpe.checked := false } else s

/-- Collection, ladder and duty end with the read side (R48, R96). -/
def stopCollecting (s : State) : State :=
  { s with
    rch.current := none
    rch.next := none
    rch.targetRead := false
    rch.resume := none
    rch.lastTaken := none
    rch.nextDsn := none
    rch.lastEnd := none
    rch.lastEndFinal := false
    rch.offset := .none
    rch.collectFor := .forward
    rch.duty := if s.rch.duty = .collect ∨ s.rch.duty = .recover then .idle else s.rch.duty }

/-- The search for the Position's data set, which read-ahead and Read Records make, ends (R56, R100). -/
def dropPositionSearch (s : State) : State :=
  if s.rch.scan.any (fun c => c.goal == .position) then
    { s with rch.scan := none, rch.duty := if s.rch.duty = .scan then .idle else s.rch.duty }
  else s

/-- The whole read side is dropped (R48, R58, R59, R60, R61); `count` says whether Read-Side Drops counts it. Read-Ahead becomes STOPPED,
and a search that it makes ends. -/
def dropReadSide (count : Bool) (s : State) : State :=
  let n := if count then s.dbf.readRing.length else 0
  settleDirection (stopCollecting (stopUnpacking { dropPositionSearch s with
    dbf.readRing := []
    dbf.readSideDrops := s.dbf.readSideDrops + n
    dbf.readAheadActive := false }))

/-- The READING slot is dropped and its collection ends (R96); Read-Side Drops counts it. Whether Read-Ahead stops is for the caller. -/
def dropCollecting (s : State) : State :=
  let s := stopCollecting s
  settleDirection { s with
    dbf.readRing := s.dbf.readRing.filter (fun d => d.state ≠ .reading)
    dbf.readSideDrops := s.dbf.readSideDrops + countState .reading s.dbf.readRing }

/-- The READING slot is dropped, its collection ends, and Read-Ahead becomes STOPPED (R96). -/
def dropReading (s : State) : State := dropCollecting { s with dbf.readAheadActive := false }

/-- A search and a Rebuild pass, and the Read Channel's duty with them, end. -/
def endSearches (s : State) : State :=
  { s with rch.scan := none, rch.rebuild := none, rch.duty := if s.rch.duty = .scan then .idle else s.rch.duty }

/-- A read-side slot is freed (R45); freeing the DRAINING slot ends the unpacking (R23). -/
def freeReadSlot (dsn : Nat) (s : State) : State :=
  let s := if (drainingSlot s).any (fun d => d.dsn == dsn) then stopUnpacking s else s
  settleDirection { s with dbf.readRing := s.dbf.readRing.filter (fun d => d.dsn ≠ dsn) }

/-- A slot becomes DRAINING and the engine takes it for unpacking, its check decode still to be made (R23, R38, R45). -/
def startDraining (dsn : Nat) (s : State) : State :=
  let s := changeRead dsn (fun d => { d with state := .draining }) s
  { s with cpe.engine := .unpacking, cpe.window := [], cpe.checked := false }

/-! ## Staging (R50, R51) -/

/-- Taking `n` bytes from the front of the staging buffers; buffers that become empty leave the FIFO. -/
def takeStaged : Nat → List Staging → List Byte × List Staging
  | _, [] => ([], [])
  | n, b :: rest =>
    if n < b.bytes.length then (b.bytes.take n, { b with bytes := b.bytes.drop n } :: rest)
    else
      let (more, left) := takeStaged (n - b.bytes.length) rest
      (b.bytes ++ more, left)

/-- The first `n` staged bytes. -/
def stagedBytes (n : Nat) (s : State) : List Byte := (takeStaged n s.dbf.staging).1

/-- The engine consumes `n` staged bytes; credits are granted for buffers that become empty (R31, R51). -/
def consumeStaged (n : Nat) (s : State) : State :=
  grantCredits { s with dbf.staging := (takeStaged n s.dbf.staging).2 }

/-! ## A record that is dropped (R35) -/

/-- The open data set is dropped when it is left with no entry, and the Next DSN falls back (R35). -/
def dropEmptyOpen (s : State) : State :=
  match fillingSlot s with
  | some d =>
    if d.entries.isEmpty then
      { s with
        dbf.writeRing := s.dbf.writeRing.filter (fun x => x.state ≠ .filling)
        fmc.nextDsn := d.dsn
        cpe.window := [] }
    else s
  | none => s

/-- The record of a tag whose bytes have not all been Accepted. -/
def Intake.partialOf (tag : Tag) : Intake → Bool
  | .record t _ _ _ _ accepted dropped => t == tag && !accepted && !dropped
  | .filemark _ => false

/-- Dropping what is left of a partial record: its bytes in staging buffers are passed over (R35). `formed` bytes of it had
left the staging buffers. -/
def Intake.drop (formed : Nat) : Intake → Intake
  | .record t len got placed _ _ _ => .record t len (got - placed - formed) 0 none false true
  | x => x

/-- A dropped record of which no byte is left in staging buffers to be passed over. -/
def Intake.spent : Intake → Bool
  | .record _ _ got placed _ _ dropped => dropped && decide (got ≤ placed)
  | .filemark _ => false

/-- The object number that a dropped record had been given (R35). -/
def Intake.objectOf : Intake → Option Nat
  | .record _ _ _ _ o _ _ => o
  | .filemark _ => none

/-- The records of a command that are not Accepted are dropped (R35): one at the head of what waits may have parts in closed data
sets, whose object number is given again, and a part being formed, which is abandoned. One with no byte left in staging buffers waits no
more, so that what follows it is placed (R32). -/
def dropRecords (tag : Tag) (s : State) : State :=
  match s.cpe.intake with
  | x :: rest =>
    let rest' := rest.map (fun y => if y.partialOf tag then y.drop 0 else y)
    if x.partialOf tag then
      dropEmptyOpen { s with
        cpe.intake := (x.drop s.cpe.forming.length :: rest').filter (fun y => !y.spent)
        cpe.forming := []
        fmc.nextObject := x.objectOf.getD s.fmc.nextObject }
    else { s with cpe.intake := x :: rest' }
  | [] => s

/-! ## Deferred failures (R74, R76) -/

/-- The reason a report is answered with (R76). -/
def ReportKind.reason : ReportKind → Reason
  | .writeFailure => .writeFailure
  | .endOfMedium => .endOfMedium
  | .sessionOpen => .cmWriteFailed

/-- The sense record of a reported failure (R76). -/
def reportSense (r : Report) (deferred : Bool) : Sense :=
  { reason := r.kind.reason, retry := false, deferred := deferred, info := some r.firstObject, dsn := r.dsn,
    count := some r.held }

/-- What a failed write-type command leaves unplaced: filemarks of its tag are not placed any more, and its records that are not
Accepted are passed over as the engine reaches them (R35, R80, R82; assumption log 12). -/
def dropUnplaced (tag : Tag) (s : State) : State :=
  dropRecords tag { s with cpe.intake := s.cpe.intake.filter (fun x => x != .filemark tag) }

/-- The media operation in hand, unless the Library Port ordered it, is dropped with the command that ordered it. -/
def dropLinkOperation (s : State) : State :=
  match s.cah.mediaOp with
  | some op => if op.orderer = Orderer.library then s else { s with cah.mediaOp := none }
  | none => s

/-- The tag of the command at the head. -/
def headTag (s : State) : Tag := match s.dlp.queue with | q :: _ => q.tag | [] => 0

/-- A library operation that waits on the flush ends with the flush's failure: the cartridge stays THREADED (R142). -/
def dropWaitingOperation (s : State) : State :=
  match s.cah.mediaOp with
  | some op =>
    if s.cah.state = CartState.threaded ∧ op.kind ≠ MediaKind.thread then { s with cah.mediaOp := none } else s
  | none => s

/-- A command at the head that is not answered with a failure found while it waits: Unthread with Force, Discard Buffer (R76). -/
def headExempt (s : State) : Bool :=
  match s.dlp.queue with
  | ⟨_, .unthread true⟩ :: _ => true
  | ⟨_, .discardBuffer⟩ :: _ => true
  | _ => false

/-- Report Pending takes a failure, unless it holds another (R76). -/
def pendReport (r : Report) (s : State) : State :=
  let s := dropWaitingOperation s
  if s.wch.report.isNone then { s with wch.report := some r } else s

/-- The command at the head is a Write Records or a Write Filemarks. -/
def headWrites (s : State) : Bool :=
  match s.dlp.queue with
  | ⟨_, .writeRecords _ _⟩ :: _ => true
  | ⟨_, .writeFilemarks _ _⟩ :: _ => true
  | _ => false

/-- A failure is reported (R73 step 4, R74 step 6, R76): it ends an executing Write Records or Write Filemarks as a failure
of its own, with the Rebuild pass, the search or the re-read that it runs (R80), answers a command that waits on its flush, and
otherwise Report Pending takes it unless it holds another. A command that a Link Reset has ended, and that waits for a data set boundary
alone, has no reply to carry it. DESIGN CHOICE: a Space, Locate, Rewind, Unthread or Rebuild Directory that was
taken with the write side empty, and waits for the tape until the writer's EOD frame is settled, goes on, and Report Pending takes the
failure: R76 would have it answer a command that waits, and R49 has such a command proceed at once (assumption log 58). -/
def reportFailure (r : Report) (s : State) : State :=
  if s.dlp.run.mute then pendReport r s
  else match s.dlp.run.phase with
  | .rebuilding | .appendScan | .rereading | .waitTape =>
    if headWrites s then
      endHead (.sense (reportSense r (0 < r.held))) (dropReading (endSearches (dropUnplaced (headTag s) s)))
    else pendReport r s
  | .receiving | .waitCommit =>
    endHead (.sense (reportSense r (s.dlp.run.accepted < r.held))) (dropUnplaced (headTag s) s)
  | .placing | .waitSync => endHead (.sense (reportSense r (0 < r.held))) (dropUnplaced (headTag s) s)
  | .waitStop => endHead (.sense (reportSense r (0 < r.held))) s
  | .waitFlush =>
    if headExempt s then pendReport r s
    else endHead (.sense (reportSense r (0 < r.held))) (dropLinkOperation s)
  | _ => pendReport r s

end Sys2Proof.Machine
end

