-- ==== Sys2Proof/Machine/Writer.lean ====
section
/-! DEFINITION. The Write Channel (R62 to R78, R84): starting and going idle, issuing frames, verdicts, failure and retry, commit,
the end of a wrap, End of Medium, permanent write failure and EOD. Motion is asked for by `askWriter`, which every event calls
when it has settled the rest. -/

namespace Sys2Proof.Machine

/-! ## Starting (R54, R78) -/

/-- The engine has yet to close the data set that the flush closes (R54). -/
def closePending (s : State) : Bool := s.dbf.flush && s.cpe.closeAfter.isSome

/-- The start condition of R54: the Start Watermark, or a flush with something to write. -/
def startCondition (s : State) : Bool :=
  let pend := countState .pending s.dbf.writeRing
  8 ≤ pend || (s.dbf.flush && (1 ≤ pend || closePending s))

/-- Whether the writer may be started (R54). -/
def startAllowed (s : State) : Bool :=
  s.cah.state == .threaded && s.cah.mode != some .writeSuspended && s.frg.condition != .faulted && s.moc.motion != .halted

/-- The Data Buffer starts an idle writer: STARTING, and the Read Channel's duty becomes VERIFY (R54, R78, R87). -/
def startWriter (s : State) : State :=
  if s.wch.writer = .idle ∧ startCondition s = true ∧ startAllowed s = true then
    { s with wch.writer := .starting, wch.wrapPhase := .open_, rch.duty := .verify }
  else s

/-- A writer in STARTING asks for the head to be brought to its next place, unless that is in hand already (R62, R78, R112). -/
def askWriter (s : State) : State :=
  let p := s.wch.nextPlace
  let inHand := match s.moc.operation with
    | some op => op.work == .writing && op.aim == some p
    | none => false
  let waits := match s.moc.waiting with
    | some r => r.work == .writing && r.aim == p
    | none => false
  if s.wch.writer = .starting ∧ inHand = false ∧ waits = false then startStream .writing p none s else s

/-! ## Issuing (R63 to R65) -/

/-- Next Tag is carried by no window entry and stands in no void tag (R64). -/
def tagFree (s : State) : Bool :=
  !(s.wch.window.any (fun e => e.tag == s.wch.nextTag)) && !(s.wch.voidTags.contains s.wch.nextTag)

/-- A frame of any kind may be issued (R64). -/
def mayIssue (s : State) : Bool := s.wch.window.length < 24 && tagFree s

/-- A whole frame place remains before the places kept for EOD (R9, R72). -/
def frameRoom (p : Place) : Bool := frameLen + eodRoom ≤ remaining p

/-- The Cartridge Handler begins to mark Session Open at the first frame of a session (R64, R140). -/
def reportFirstFrame (s : State) : State :=
  if s.wch.sessionStarted then s
  else
    { s with
      wch.sessionStarted := true
      cah.sessionOpenWrite := if s.cah.sessionOpenMarked then s.cah.sessionOpenWrite else some 1 }

/-- A frame goes to tape at the next place with Next Tag; it enters the Verify Window and the Trail List (R63, R65, R88). -/
def issue (kind : WinKind) (dsn index : Option Nat) (attempt : Nat) (f : TapeFrame) (s : State) : State :=
  let p := s.wch.nextPlace
  let t := s.wch.nextTag
  reportFirstFrame (emit (.frame p f) { s with
    wch.window := s.wch.window ++ [⟨t, kind, dsn, index, attempt, p⟩]
    wch.nextTag := (t + 1) % 32
    wch.nextPlace := p.next
    wch.eodCurrent := s.wch.eodCurrent && p != s.fmc.eod.place
    rch.trail := s.rch.trail ++ [(p, t)] })

/-- The bytes of a part of the payload area with the padding of value zero that fills it (R2). -/
def padded (n : Nat) (bytes : List PSym) : List PSym := bytes ++ List.replicate (n - bytes.length) (.raw 0#8)

/-- The frame of a data set at an index: the header, or 32,768 bytes of the payload area, padding included (R2, R3, R33). -/
def frameOf (d : Slot) (index tag : Nat) : TapeFrame :=
  if index = 0 then .header tag ⟨d.dsn, d.firstObject.getD 0, d.entries.length, d.entries⟩
  else .payload tag d.dsn index (padded 32768 ((d.payload.drop ((index - 1) * 32768)).take 32768))

/-- The Abandon frame of Abandon Pending (R64, R65). -/
def issueAbandon (dsn attempt : Nat) (s : State) : State :=
  let p := s.wch.nextPlace
  issue .abandon (some dsn) none attempt (.abandon s.wch.nextTag dsn)
    { changeWrite dsn (fun d => { d with endPlace := some p }) s with wch.abandon := none }

/-- The head of the Rewrite Queue (R64, R68). -/
def issueRewrite (e : RewriteEntry) (s : State) : State :=
  let p := s.wch.nextPlace
  match writeSlot e.dsn s with
  | none => { s with wch.rewriteQueue := s.wch.rewriteQueue.drop 1 }
  | some d =>
    issue .data (some e.dsn) (some e.index) e.attempt (frameOf d e.index s.wch.nextTag)
      { changeWrite e.dsn (fun d => { d with
          attempts := d.attempts.set e.index e.attempt, written := d.written + 1, endPlace := some p }) s with
        wch.rewriteQueue := s.wch.rewriteQueue.drop 1 }

/-- The next unissued frame of a data set; frame 0 forms or begins its record (R64, R65, R119). -/
def issueNew (d : Slot) (s : State) : State :=
  let p := s.wch.nextPlace
  let index := d.nextIndex
  let begun := index = 0
  issue .data (some d.dsn) (some index) 1 (frameOf d index s.wch.nextTag)
    { changeWrite d.dsn (fun d => { d with
        state := .writing
        nextIndex := index + 1
        attempts := if begun then List.replicate 33 1 else d.attempts
        written := d.written + 1
        cut := if begun then false else d.cut
        startPlace := if begun then some p else d.startPlace
        endPlace := some p }) s with
      moc.servoLost := if begun then 0 else s.moc.servoLost }

/-- The EOD frame (R77): the last committed DSN and the next object number. -/
def issueEod (attempt : Nat) (s : State) : State :=
  let s := issue .eod s.fmc.eod.lastDsn none attempt (.eod s.wch.nextTag s.fmc.eod.lastDsn s.fmc.eod.nextObject) s
  { s with wch.writer := .ending }

/-- The newest data set begun on the place's wrap takes a length. -/
def lengthenNewest (p : Place) (ring : List Slot) : List Slot :=
  match ring.reverse.find? (fun d => d.state == .writing && d.startPlace.any (fun q => q.wrap == p.wrap)) with
  | some n => ring.map (fun d => if d.dsn = n.dsn then { d with endPlace := some p } else d)
  | none => ring

/-- The place passes blank and counts in the newest data set begun (R63). -/
def passBlank (s : State) : State :=
  { s with
    dbf.writeRing := lengthenNewest s.wch.nextPlace s.dbf.writeRing
    wch.nextPlace := s.wch.nextPlace.next }

/-- The data set whose new frame may come next: the oldest with unissued frames that waits on no Abandon frame (R64, R70). In a closing
wrap no data set begins, and the data sets already begun have their unissued frames issued on (R72). -/
def nextCandidate (s : State) : Option Slot :=
  let closing := s.wch.wrapPhase == .closing
  s.dbf.writeRing.find? fun d =>
    ((d.state == .pending && !closing) || (d.state == .writing && d.nextIndex < 33 && (!closing || 0 < d.nextIndex)))
      && !d.awaitAbandon

/-- The slots before a DSN in the write ring, nearest first. -/
def before (dsn : Nat) (ring : List Slot) : List Slot := (ring.takeWhile (fun d => d.dsn != dsn)).reverse

/-- The first two conditions of frame 0: the previous header verified, and two data sets at most unsettled (R64). -/
def frameZeroOk (dsn : Nat) (ring : List Slot) : Bool :=
  match before dsn ring with
  | [] => true
  | p :: rest => p.good.contains 0 && rest.all (fun d => d.good.length == 33)

/-! ## Failures (R69, R73, R74) -/

/-- Window entries removed before their verdict: their tags go to Void Tags (R65). -/
def voidEntries (gone : WinEntry → Bool) (s : State) : State :=
  { s with
    wch.window := s.wch.window.filter (fun e => !gone e)
    wch.voidTags := s.wch.voidTags ++ (s.wch.window.filter gone).map (fun e => e.tag) }

/-- An EOD frame is called for (R77): written at the EOD position's place, which the head must be brought to unless it
stands there. With EOD Current set, or Directory Valid clear, there is none to write. -/
def planEod (c : EodCause) (s : State) : State :=
  let ready := s.wch.writer == .writing && s.wch.nextPlace == s.fmc.eod.place && s.wch.wrapPhase != .runOut
  { s with
    wch.eodPlan := some ⟨c, 1⟩
    wch.nextPlace := s.fmc.eod.place
    wch.wrapPhase := .open_
    wch.writer := if ready then .writing else .starting
    rch.duty := .verify }

/-- The medium takes no frame: READ-ONLY for whatever cause (R106, R134). -/
def readOnlyMedium (s : State) : Bool :=
  match s.cah.mode with
  | some (.readOnly _) => true
  | _ => false

/-- An EOD frame is to be written where one is called for (R74, R77): not on a READ-ONLY medium, where no frame is written (R106). -/
def eodWanted (s : State) : Bool := !s.wch.eodCurrent && s.fmc.directoryValid && !s.wch.eodGivenUp && !readOnlyMedium s

/-- The writer leaves ENDING, or passes through it at once (R55, R62, R73, R74). It goes IDLE when it went idle or the
write side was discarded, and SUSPENDED after a failure or End of Medium. The tape backhitches when it went idle with no
flush demanded, and stops otherwise; a start that R54 calls for takes the place of either. The stop is the writer's own: a motion
made for other work goes on. -/
def finishEod (c : EodCause) (s : State) : State :=
  let s := { s with wch.eodPlan := none, wch.nextPlace := s.fmc.eod.place, wch.wrapPhase := .open_ }
  match c with
  | .endOfMedium | .failure => stopWriting { s with wch.writer := .suspended }
  | .idle | .discard =>
    let s := { s with wch.writer := .idle }
    if startCondition s ∧ startAllowed s then startWriter s
    else if s.dbf.flush ∨ c = .discard then stopWriting s
    else startBackhitch .writing s.fmc.eod.place s

/-- The writer goes on to EOD for a cause, or has none to write. -/
def toEod (c : EodCause) (s : State) : State := if eodWanted s then planEod c s else finishEod c s

/-- A flush in hand ends (R34). -/
def endFlush (s : State) : State := { s with dbf.flush := false, cpe.closeAfter := none }

/-- Permanent write failure (R74), and the failure of the Session Open write, which takes the same steps (R140); a tape that is being
unthreaded takes no EOD frame any more. -/
def permanentFailure (kind : ReportKind) (dsn : Option Nat) (ofEod : Bool) (s : State) : State :=
  let s := voidEntries (fun _ => true) s
  let s := { s with
    wch.rewriteQueue := []
    wch.abandon := none
    wch.eodPlan := none
    cah.mode := some .writeSuspended
    wch.writer := if s.wch.writer = .ending then .starting else s.wch.writer }
  let s := if ofEod = true ∨ s.cah.state ≠ .threaded then finishEod .failure s else toEod .failure s
  let s := endFlush (latch .writeFailure s)
  reportFailure ⟨kind, dsn, s.fmc.eod.nextObject, held s⟩ s

/-- A data set fails (R69): the first failure of its DSN starts a Data Set Retry, the second is permanent. -/
def failDataSet (dsn : Nat) (s : State) : State :=
  match writeSlot dsn s with
  | none => s
  | some d =>
    if d.retried then permanentFailure .writeFailure (some dsn) false s
    else
      let s := voidEntries (fun e => e.kind == .data && e.dsn == some dsn) s
      let s := changeWrite dsn (fun d => { d with
        nextIndex := 0, good := [], attempts := List.replicate 33 1, retried := true, awaitAbandon := true }) s
      { s with
        wch.rewriteQueue := s.wch.rewriteQueue.filter (fun e => e.dsn ≠ dsn)
        wch.retries := s.wch.retries + 1
        wch.abandon := some (dsn, 1) }

/-! ## Commit (R71) -/

/-- The head of the write ring commits. -/
def commitSlot (d : Slot) (s : State) : State :=
  let s := formatCommit d s
  let n := d.written - 33
  let s := headSample (sampleOf n) { s with wch.eodCurrent := false }
  { s with
    wch.rewriteFrames := s.wch.rewriteFrames + n
    wch.dataSetsCommitted := s.wch.dataSetsCommitted + 1
    dbf.writeRing := s.dbf.writeRing.drop 1 }

/-- Settled data sets at the head commit one after another; the fuel is the length of the ring. -/
def commitFrom : Nat → State → State
  | 0, s => s
  | n + 1, s =>
    match s.dbf.writeRing with
    | d :: _ => if d.state = .writing ∧ d.good.length = 33 then commitFrom n (commitSlot d s) else s
    | [] => s

def commitChain (s : State) : State := commitFrom s.dbf.writeRing.length s

/-- The writer goes idle when the ring holds no PENDING and no WRITING slot (R55). DESIGN CHOICE: while a flush has yet to close the
open data set, the writer stays WRITING until the close, since R55 takes the write side as then empty (assumption log 18). -/
def writerIdle (s : State) : State :=
  if s.wch.writer = .writing ∧ s.wch.eodPlan = none ∧ closePending s = false
      ∧ s.dbf.writeRing.all (fun d => d.state == .filling) = true then toEod .idle s
  else s

/-! ## The end of a wrap (R72, R73) -/

/-- A data set that is cut: its record begins again, and Cut is set (R72). -/
def Slot.cutCopy (d : Slot) : Slot :=
  { d with
    nextIndex := 0
    good := []
    attempts := []
    written := 0
    cut := true
    awaitAbandon := false
    startPlace := none
    endPlace := none }

/-- Every data set begun on the wrap and not settled is cut (R9, R72); one that is settled behind it stays (R71). -/
def cutUnsettled (s : State) : State :=
  let s := voidEntries (fun e => e.kind == .data) s
  { s with
    dbf.writeRing := s.dbf.writeRing.map (fun d => if d.state = .writing ∧ d.good.length ≠ 33 then d.cutCopy else d)
    wch.rewriteQueue := []
    wch.abandon := none }

/-- End of Medium (R73): no further frame, EOD after the last committed data set, End of Medium Stop, the report. -/
def endOfMedium (s : State) : State :=
  let s := voidEntries (fun e => e.kind != .eod) s
  let s := { s with wch.rewriteQueue := [], wch.abandon := none, wch.endOfMediumStop := true }
  let s := endFlush (toEod .endOfMedium s)
  reportFailure ⟨.endOfMedium, none, s.fmc.eod.nextObject, held s⟩ s

/-- The wrap has ended and the read head has passed its last frame: what is unsettled is cut, and the tape turns around, or
on the last wrap End of Medium is taken (R72, R73). -/
def endWrap (s : State) : State :=
  let s := cutUnsettled s
  let w := s.wch.nextPlace.wrap
  if lastWrap s ≤ w then endOfMedium s
  else
    let p := wrapStart (w + 1)
    turnTo .writing p none { s with wch.nextPlace := p, wch.wrapPhase := .open_, wch.writer := .starting }

/-- A closing wrap ends when every data set begun on it is settled and no Abandon frame is pending, and the tape runs on
until the read head has passed the last frame (R66, R72). -/
def checkWrap (s : State) : State :=
  if s.wch.writer ≠ .writing ∨ s.wch.eodPlan ≠ none then s
  else
    let s := if s.wch.wrapPhase = .closing ∧ s.wch.abandon = none
        ∧ s.dbf.writeRing.all (fun d => d.state != .writing) = true then { s with wch.wrapPhase := .runOut } else s
    if s.wch.wrapPhase = .runOut ∧ s.rch.trail = [] then endWrap s else s

/-! ## Verdicts (R67, R68) -/

/-- The frame at an EOD place failed: another copy at the next place, or a permanent write failure (R67, R74). -/
def eodBad (e : WinEntry) (s : State) : State :=
  let c := match s.wch.eodPlan with | some p => p.cause | none => .idle
  if e.attempt < 4 then
    { s with wch.eodPlan := some ⟨c, e.attempt + 1⟩, wch.writer := .starting, wch.nextPlace := e.place.next }
  else if c = .failure then finishEod .failure { s with wch.eodGivenUp := true }
  else permanentFailure .writeFailure s.fmc.eod.lastDsn true s

/-- A BAD or MISSING verdict for a DATA entry (R67, R68). -/
def dataBad (e : WinEntry) (s : State) : State :=
  let dsn := e.dsn.getD 0
  if e.attempt < 4 ∧ s.wch.rewriteQueue.length < 16 then
    { s with wch.rewriteQueue := s.wch.rewriteQueue ++ [⟨dsn, e.index.getD 0, e.attempt + 1⟩] }
  else failDataSet dsn s

/-- A GOOD verdict for a DATA entry: the index joins the GOOD frames, and a settled head commits (R67, R71). -/
def dataGood (e : WinEntry) (s : State) : State :=
  let i := e.index.getD 0
  commitChain (changeWrite (e.dsn.getD 0) (fun d =>
    { d with good := if d.good.contains i then d.good else d.good ++ [i] }) s)

/-- A verdict matched to its window entry (R67). -/
def matchVerdict (e : WinEntry) (good : Bool) (s : State) : State :=
  match e.kind, good with
  | .data, true => dataGood e s
  | .data, false => dataBad e s
  | .abandon, true => changeWrite (e.dsn.getD 0) (fun d => { d with awaitAbandon := false }) s
  | .abandon, false =>
    if e.attempt < 4 then { s with wch.abandon := e.dsn.map (fun d => (d, e.attempt + 1)) }
    else permanentFailure .writeFailure e.dsn false s
  | .eod, true =>
    finishEod (match s.wch.eodPlan with | some p => p.cause | none => .idle) { s with wch.eodCurrent := true }
  | .eod, false => eodBad e s

/-- A verdict with its tag (R67). -/
def takeVerdict (tag : Nat) (good : Bool) (s : State) : State :=
  if tag ∈ s.wch.voidTags then
    { s with wch.voidTags := s.wch.voidTags.erase tag, wch.strays := s.wch.strays + 1 }
  else match s.wch.window.find? (fun e => e.tag == tag) with
  | none => { s with wch.strays := s.wch.strays + 1 }
  | some e => matchVerdict e good { s with wch.window := s.wch.window.filter (fun x => x.tag ≠ tag) }

/-- The MISSING verdicts at a stop that does not wait for the read head: for each window entry, then for each void tag; the
Trail List is emptied (R66, R88). -/
def missingVerdicts (s : State) : State :=
  let s := (s.wch.window.map (fun e => e.tag)).foldl (fun acc t => takeVerdict t false acc) { s with rch.trail := [] }
  s.wch.voidTags.foldl (fun acc t => takeVerdict t false acc) s

/-- The verdict of what the read head finds at a listed place (R88). -/
def tagOf : TapeFrame → Nat
  | .header t _ => t
  | .payload t _ _ _ => t
  | .abandon t _ => t
  | .eod t _ _ => t

def verdictGood (tag : Nat) : Found → Bool
  | .readable f => tagOf f == tag
  | .unreadable => false
  | .blank => false

/-- VERIFY ends when the Trail List is empty and the writer is IDLE or SUSPENDED (R87). -/
def settleDuty (s : State) : State :=
  if s.rch.duty = .verify ∧ s.rch.trail = [] ∧ (s.wch.writer = .idle ∨ s.wch.writer = .suspended) then
    { s with rch.duty := .idle }
  else s

/-! ## Stops of the writer -/

/-- The tape has come to rest with no frame of the window still to be verified: what the Trail List still holds are frames of a
discarded write side or of a retry, which the read head will not pass, so the list is emptied and the void tags have their MISSING
verdicts, which are stray (R66, R85, R88). -/
def strandTrail (s : State) : State :=
  if s.wch.window = [] ∧ s.wch.writer ≠ .ending then
    { s with
      rch.trail := []
      wch.voidTags := []
      wch.strays := s.wch.strays + s.wch.voidTags.length }
  else s

/-- The writer at a Motion Fault, and when the drive freezes on BUFFER MEMORY: IDLE from every state, with window, Void Tags and
Rewrite Queue emptied and no EOD written; the write side stays (R62, R121, R188). The MISSING verdicts of such a stop (R66, R88) follow.
DESIGN CHOICE: they come after the window and the Void Tags have been emptied, so that each of them is stray and makes no rewrite and
no failure (assumption log 46). -/
def writerFault (s : State) : State :=
  { s with
    wch.writer := .idle
    wch.window := []
    wch.voidTags := []
    wch.strays := s.wch.strays + s.wch.window.length + s.wch.voidTags.length
    wch.rewriteQueue := []
    wch.abandon := none
    wch.eodPlan := none
    wch.wrapPhase := .open_
    wch.nextPlace := s.fmc.eod.place
    rch.trail := []
    rch.duty := if s.rch.duty = .verify then .idle else s.rch.duty }

/-- The channel's part of a discard of the write side (R84), the EOD frame apart. -/
def discardChannel (s : State) : State :=
  let s := voidEntries (fun e => e.kind != .eod) s
  { s with
    wch.rewriteQueue := []
    wch.abandon := none
    wch.endOfMediumStop := false
    wch.wrapPhase := .open_
    wch.eodPlan := if s.wch.writer = .ending then some ⟨.discard, (s.wch.eodPlan.map (·.attempt)).getD 1⟩ else none
    wch.writer := if s.wch.writer = .ending then .ending else .idle }

/-! ## One frame place (R64) -/

/-- Frame 0 of a data set at the next place: the room test of R9 last of its conditions, a speed change at the boundary
first (R64, R72, R128). -/
def beginDataSet (d : Slot) (s : State) : State :=
  if frameZeroOk d.dsn s.dbf.writeRing = false then passBlank s
  else if remaining s.wch.nextPlace < dataSetRoom then
    let s := checkWrap { s with wch.wrapPhase := .closing }
    if s.wch.wrapPhase ≠ .closing then s
    else match nextCandidate s with
    | some d => issueNew d s
    | none => passBlank s
  else if s.moc.step ≠ s.sgv.target then
    speedChange .writing s.wch.nextPlace { s with wch.writer := .starting }
  else issueNew d s

/-- What the writer does at a frame place, the memory check of the slot apart (R64). DESIGN CHOICE: an EOD frame that may not be issued
yet waits for its own place, which R77 fixes, and that place does not pass blank, as R63 has it for other frames (assumption
log 18). -/
def frameStep (s : State) : State :=
  match s.wch.eodPlan with
  | some p => if mayIssue s then issueEod p.attempt s else s
  | none =>
    if s.wch.wrapPhase = .runOut then s
    else if frameRoom s.wch.nextPlace = false then checkWrap { s with wch.wrapPhase := .runOut }
    else if mayIssue s = false then passBlank s
    else match s.wch.abandon, s.wch.rewriteQueue, nextCandidate s with
      | some (dsn, attempt), _, _ => issueAbandon dsn attempt s
      | none, e :: _, _ => issueRewrite e s
      | none, [], some d => if d.nextIndex = 0 then beginDataSet d s else issueNew d s
      | none, [], none => passBlank s

/-- The frame place would take a data set from its PENDING slot (R187: the payload check is made there). DESIGN CHOICE: for a retry copy or
a cut copy the check is not made again, since R187 speaks of the taking from the slot alone (assumption log 62). -/
def takesSlot (s : State) : Bool :=
  s.wch.eodPlan.isNone && s.wch.wrapPhase == .open_ && mayIssue s && frameRoom s.wch.nextPlace && s.wch.abandon.isNone
    && s.wch.rewriteQueue.isEmpty &&
  (match nextCandidate s with
   | some d => d.state == .pending && frameZeroOk d.dsn s.dbf.writeRing && dataSetRoom ≤ remaining s.wch.nextPlace
      && s.moc.step == s.sgv.target
   | none => false)

end Sys2Proof.Machine
end

