-- ==== Sys2Proof/Machine/Engine.lean ====
section
/-! DEFINITION. The Compression Engine on the write side (R23, R27 to R37): what waits to be placed, opening and closing data sets,
forming and placing parts and filemarks, the flush demand, the partial record of an Abort, and the engine's discard. -/

namespace Sys2Proof.Machine

/-! ## Opening and closing (R27, R33, R40) -/

/-- The uncompressed bytes of carried entries, which prime the window (R25). DESIGN CHOICE: entries carried from a READY slot have met no
check decode; where they do not decode, the window is primed with nothing, and the entries are placed all the same, copied as they stand
(assumption log 50). -/
def carriedBytes (es : List Entry) (payload : List PSym) : List Byte :=
  match decodeDataSet es payload with
  | some parts => parts.flatten
  | none => []

/-- A data set opens in a FREE slot with the Next DSN and any carried entries; with no FREE slot the engine enters SLOT WAIT
(R27, R28). -/
def openDataSet (s : State) : State :=
  if freeSlots s = 0 then { s with cpe.engine := .slotWait }
  else
    { s with
      dbf.writeRing := s.dbf.writeRing ++ [{
        state := .filling
        dsn := s.fmc.nextDsn
        entries := s.cpe.carryEntries
        payload := s.cpe.carryPayload
        carried := s.cpe.carryEntries.length }]
      dbf.direction := .write
      fmc.nextDsn := s.fmc.nextDsn + 1
      cpe.engine := .packing
      cpe.window := carriedBytes s.cpe.carryEntries s.cpe.carryPayload
      cpe.compressThisSet := s.cpe.switchOn && !s.cpe.sessionDisable
      cpe.carryEntries := []
      cpe.carryPayload := [] }

/-- The first object number of the open data set, from the Next Object Number and its entries (R3, R33). -/
def firstOf (next : Nat) (es : List Entry) : Nat :=
  next - countObjects es - (match es with | e :: _ => if e.beginsObject then 0 else 1 | [] => 0)

/-- The slot as it closes (R33, R43). -/
def Slot.closed (next : Nat) (d : Slot) : Slot :=
  let first := firstOf next d.entries
  { d with
    state := .pending
    firstObject := some first
    objectCount := some (countObjects d.entries)
    objectAfter := some (Sys2Proof.objectAfter first d.entries)
    figU := some (sumUncompressed d.entries)
    figC := some (sumStored d.entries) }

/-- The object after those that have an entry: the Next Object Number, less the record at the head of what waits where its first bytes
are in the part being formed and no entry of it stands yet (R1, R31). -/
def nextEntered (s : State) : Nat :=
  match s.cpe.intake with
  | .record _ _ _ 0 (some o) _ false :: _ => o
  | _ => s.fmc.nextObject

/-- The open data set closes to PENDING, and its figures go to the governor (R33, R40, R124); one with no entry is not closed (R35). -/
def closeDataSet (s : State) : State :=
  match fillingSlot s with
  | none => s
  | some d =>
    if d.entries.isEmpty then s
    else
      evaluate s.dlp.heldTime (sumUncompressed d.entries) (sumStored d.entries)
        (changeFilling (Slot.closed (nextEntered s)) s)

/-! ## What waits (R31, R32) -/

/-- The engine consumes nothing of the command at the head until its append point is set (R80). -/
def engineBlocked (s : State) : Bool :=
  match s.dlp.run.phase with
  | .rebuilding | .appendScan | .rereading => true
  | .waitTape => headWrites s
  | _ => false

/-- The objects that a flush must place before it closes the data set: records Accepted, and filemarks (R34). -/
def Intake.counted : Intake → Bool
  | .filemark _ => true
  | .record _ _ _ _ _ accepted dropped => accepted && !dropped

/-- An object leaves the head of what waits; a flush in hand counts it off (R34). -/
def dropIntake (s : State) : State :=
  match s.cpe.intake with
  | [] => s
  | x :: rest =>
    { s with
      cpe.intake := rest
      cpe.closeAfter := s.cpe.closeAfter.map (fun n => if x.counted then n - 1 else n) }

/-- The entry joins the open data set (R29, R32). -/
def addEntry (e : Entry) (syms : List PSym) (bytes : List Byte) (s : State) : State :=
  let s := changeFilling (fun d => { d with entries := d.entries ++ [e], payload := d.payload ++ syms }) s
  { s with cpe.window := s.cpe.window ++ bytes }

/-- The directory of the open data set is full (R33). -/
def directoryFull (s : State) : Bool :=
  match fillingSlot s with
  | some d => 8192 ≤ d.entries.length
  | none => false

/-- One filemark is placed: it takes the Next Object Number, and the Position rises past it (R1, R32, R82). -/
def placeFilemark (s : State) : State :=
  let s := dropIntake (addEntry .filemark [] [] s)
  let s := { s with
    fmc.nextObject := s.fmc.nextObject + 1
    fmc.position := s.fmc.position + 1
    dlp.run.lastObject := s.fmc.nextObject + 1 }
  if directoryFull s then closeDataSet s else s

/-- What the engine does without consuming a byte: it places the filemarks that wait at the head, and closes the open data
set when a flush has placed what came before it (R32, R34). The fuel is the number of objects that wait. -/
def drainFrom : Nat → State → State
  | 0, s => s
  | n + 1, s =>
    match s.cpe.intake, s.cpe.closeAfter with
    | _, some 0 =>
      if s.cpe.carryEntries.isEmpty = false ∧ (fillingSlot s).isNone then
        let s' := openDataSet s
        if s'.cpe.engine = .slotWait then s' else { closeDataSet s' with cpe.closeAfter := none }
      else drainFrom n { closeDataSet s with cpe.closeAfter := none }
    | .filemark _ :: _, _ =>
      if (fillingSlot s).isSome then drainFrom n (placeFilemark s)
      else
        let s' := openDataSet s
        if s'.cpe.engine = .slotWait then s' else drainFrom n (placeFilemark s')
    | _, _ => s

/-- The engine has work in hand (R23). -/
def engineWork (s : State) : Bool :=
  s.dbf.staging.any (fun b => !b.bytes.isEmpty) || s.cpe.closeAfter.isSome || !s.cpe.carryEntries.isEmpty
    || s.cpe.intake.any (fun x => match x with | .filemark _ => true | _ => false)

/-- An entry waits to be placed (R27): the first of the carry store, a filemark, or bytes of a record that is not dropped. -/
def entryWaits (s : State) : Bool :=
  !s.cpe.carryEntries.isEmpty ||
  (match s.cpe.intake with
   | .filemark _ :: _ => true
   | .record _ _ received placed _ _ dropped :: _ => !dropped && decide (placed < received)
   | [] => false)

/-- The engine is in SLOT WAIT for an entry that still waits, and no slot is FREE (R23). -/
def slotWaits (s : State) : Bool := s.cpe.engine == .slotWait && freeSlots s == 0 && entryWaits s

/-- The engine settles: a FREE slot ends a SLOT WAIT and the data set opens, and so does the loss of the entry that waited, with no
data set opened; waiting filemarks and a demanded close are done, and the state is PACKING or IDLE by the work in hand (R23, R27). -/
def settleEngine (s : State) : State :=
  if s.cpe.engine = .unpacking ∨ engineBlocked s then s
  else if slotWaits s then s
  else
    let s := if s.cpe.engine = .slotWait then (if entryWaits s then openDataSet s else { s with cpe.engine := .idle }) else s
    let s := drainFrom (s.cpe.intake.length + 2) s
    if s.cpe.engine = .slotWait then s else { s with cpe.engine := if engineWork s then .packing else .idle }

/-- A flush is demanded (R34): the engine places what has been accepted and then closes the open data set. A demand taken while a flush
is in hand adds nothing. -/
def demandFlush (s : State) : State :=
  if s.dbf.flush then settleEngine s
  else settleEngine { s with dbf.flush := true, cpe.closeAfter := some (s.cpe.intake.filter Intake.counted).length }

/-! ## Parts (R29 to R31, R36, R37) -/

/-- A shadow check that failed counts a Compression Fault; the third sets Session Disable and is reported (R36, R37). -/
def compressionFault (s : State) : State :=
  let n := s.cpe.faults + 1
  let s := { s with cpe.faults := n }
  if n = 3 then reportFault .compression .compressionFaults { s with cpe.sessionDisable := true } else s

/-- The payload still free in the open data set (R29). -/
def payloadRoom (s : State) : Nat :=
  match fillingSlot s with
  | some d => 1048576 - sumStored d.entries
  | none => 0

/-- A part of the record at the head of what waits is placed (R30, R31). -/
def placePart (kind : PartKind) (bytes : List Byte) (syms : List PSym) (tag : Tag) (length placed received : Nat)
    (object : Option Nat) (accepted : Bool) (s : State) : State :=
  let n := bytes.length
  let ends := placed + n = length
  let o := object.getD s.fmc.nextObject
  let used := s.cpe.forming.length
  let s := addEntry (.part ⟨n, syms.length, kind, placed = 0, ends⟩) syms bytes s
  let s := { s with
    fmc.nextObject := if object.isNone then o + 1 else s.fmc.nextObject
    cpe.forming := s.cpe.forming.drop n }
  let s := consumeStaged (n - used) s
  if ends then
    let s := dropIntake { s with dlp.run.lastObject := o + 1 }
    if directoryFull s then closeDataSet s else s
  else
    closeDataSet { s with
      cpe.intake := .record tag length received (placed + n) (some o) accepted false :: s.cpe.intake.drop 1 }

/-- Bytes of the record at the head of what waits join the part being formed; with the first of them Format Control gives the record
the Next Object Number (R1, R31). -/
def takeBytes (avail : List Byte) (tag : Tag) (length received placed : Nat) (object : Option Nat) (accepted : Bool) (s : State) :
    State :=
  let o := object.getD s.fmc.nextObject
  consumeStaged (avail.length - s.cpe.forming.length) { s with
    cpe.forming := avail
    cpe.intake := .record tag length received placed (some o) accepted false :: s.cpe.intake.drop 1
    fmc.nextObject := if object.isNone then o + 1 else s.fmc.nextObject }

/-- The next part of a record, with a data set open (R29 to R31, R36). -/
def formRecord (agrees : Bool) (tag : Tag) (length received placed : Nat) (object : Option Nat) (accepted : Bool)
    (s : State) : State :=
  let avail := s.cpe.forming ++ stagedBytes (received - placed - s.cpe.forming.length) s
  match formPart (s.cpe.compressThisSet && !s.cpe.sessionDisable) agrees (payloadRoom s) (length - placed) s.cpe.window avail with
  | .more n =>
    if n ≤ s.cpe.forming.length then s else takeBytes avail tag length received placed object accepted s
  | .part kind bytes syms fault =>
    let s := if fault then compressionFault s else s
    placePart kind bytes syms tag length placed received object accepted s

/-- The bytes of a record dropped by an Abort are passed over (R35). -/
def passOver (received placed : Nat) (s : State) : State := dropIntake (consumeStaged (received - placed) s)

/-- A data set is open with payload free for a part: one whose payload is full closes, and where none is open one opens (R27, R33). -/
def openForPart (s : State) : State :=
  let s := if (fillingSlot s).isSome ∧ payloadRoom s = 0 then closeDataSet s else s
  if (fillingSlot s).isNone then openDataSet s else s

/-- The engine's step (PACK_RECORD_PART): the next part of the record at the head of what waits, a dropped record passed
over, or a data set opened for it. One that opens with carried entries that fill its payload closes in turn (R33). -/
def packStep (agrees : Bool) (s : State) : State :=
  if s.cpe.engine = .unpacking ∨ s.cpe.engine = .slotWait ∨ engineBlocked s then s
  else match s.cpe.intake with
  | .record tag length received placed object accepted dropped :: _ =>
    if dropped then passOver received placed s
    else if received ≤ placed then s
    else
      let s := openForPart (openForPart s)
      if s.cpe.engine = .slotWait then s
      else formRecord agrees tag length received placed object accepted s
  | _ => if s.cpe.carryEntries.isEmpty = false ∧ (fillingSlot s).isNone then openDataSet s else s

/-! ## The partial record and the discard (R34, R35) -/

/-- The partial record of a command is dropped, and the engine settles (R35). -/
def dropPartial (tag : Tag) (s : State) : State := settleEngine (dropRecords tag s)

/-- The engine's part of a discard (R34): no open data set, empty carry store and window, nothing waiting, IDLE. -/
def discardEngine (s : State) : State :=
  { s with
    cpe.engine := if s.cpe.engine = .unpacking then .unpacking else .idle
    cpe.forming := []
    cpe.window := if s.cpe.engine = .unpacking then s.cpe.window else []
    cpe.carryEntries := []
    cpe.carryPayload := []
    cpe.intake := []
    cpe.closeAfter := none
    dbf.flush := false }

/-- The write side is discarded (R60): engine, staging buffers with their credits, slots, Write Channel and numbering. With nothing on
the write side there is no numbering to set back, and the Position stays (R20, R60). The EOD frame that R77 calls for is planned when
the tape is threaded. The direction follows R47. -/
def discardWriteSide (s : State) : State :=
  let nothing := writeSideEmpty s
  let s := discardEngine s
  let moving := s.wch.writer = .writing ∨ s.wch.writer = .starting
  let s := grantCredits { s with dbf.staging := [], dbf.writeRing := [] }
  let s := discardChannel s
  let s := if nothing then s else discardNumbering s
  let s := settleDirection s
  if s.cah.state = .threaded ∧ eodWanted s ∧ s.wch.writer ≠ .ending ∧ s.moc.motion ≠ .halted then planEod .discard s
  else if moving then stopWriting s
  else s

/-- The objects of the command at the head become Accepted as the append point is set (R80). -/
def Intake.accept : Intake → Intake
  | .record t len got placed o _ false => .record t len got placed o (got = len) false
  | x => x

/-- Records received whole before the append point was set become Accepted, and the Position rises for them (R50, R80). -/
def acceptWaiting (s : State) : State :=
  let whole := (s.cpe.intake.filter (fun x => match x with
    | .record _ len got _ _ false false => got == len
    | _ => false)).length
  { s with
    cpe.intake := s.cpe.intake.map Intake.accept
    fmc.accepted := s.fmc.accepted + whole
    fmc.position := s.fmc.position + whole
    dlp.run.accepted := s.dlp.run.accepted + whole }

/-- `n` record bytes enter the staging buffers for the Write Records at the head: records complete as their last byte comes,
and are Accepted when the append point stands (R50, R80). The fuel is the number of lengths. -/
def receiveFrom (appendSet : Bool) (tag : Tag) : Nat → Nat → State → State
  | 0, _, s => s
  | fuel + 1, n, s =>
    match s.dlp.run.lengths with
    | [] => s
    | len :: rest =>
      if n = 0 then s
      else
        let got := s.dlp.run.got
        let k := min n (len - got)
        let whole := got + k = len
        let accepted := whole && appendSet
        let intake := if got = 0 then s.cpe.intake ++ [.record tag len 0 0 none false false] else s.cpe.intake
        let intake := intake.map fun x => match x with
          | .record t l g p o false false => if t = tag ∧ g < l then .record t l (g + k) p o accepted false else x
          | _ => x
        let s := { s with
          cpe.intake := intake
          dlp.run.lengths := if whole then rest else s.dlp.run.lengths
          dlp.run.got := if whole then 0 else got + k }
        let s := if accepted then { s with
            fmc.accepted := s.fmc.accepted + 1
            fmc.position := s.fmc.position + 1
            dlp.run.accepted := s.dlp.run.accepted + 1 } else s
        receiveFrom appendSet tag fuel (n - k) s

/-- The bytes that the Write Records at the head has still to receive (R50). -/
def bytesLeft (s : State) : Nat := s.dlp.run.lengths.sum - s.dlp.run.got

/-- A Write Records with a tag is executing and its bytes are not all received (R50 to R52); one that a Link Reset has ended receives
none (R168). -/
def receivesFor (tag : Tag) (s : State) : Bool :=
  match s.dlp.queue, s.dlp.run.phase with
  | _, .notBegun => false
  | ⟨t, .writeRecords _ _⟩ :: _, _ => t == tag && 0 < bytesLeft s && !s.dlp.run.mute
  | _, _ => false

/-- Some Write Records is executing with bytes not all received (R52). -/
def receivesAny (s : State) : Bool :=
  match s.dlp.queue with
  | q :: _ => receivesFor q.tag s
  | [] => false

end Sys2Proof.Machine
end

