-- ==== Sys2Proof/Machine/Reader.lean ====
section
/-! DEFINITION. The Read Channel's collection of data sets (R86 to R96), the delivery of records (R41, R59, R100) and what follows a
data set that cannot be read. -/

namespace Sys2Proof.Machine

/-! ## Reads that end (R59, R100) -/

/-- The running Read Records ends with an outcome, ABORTED where an Abort of it is in hand: the records delivered and the Position
(R100, R101). -/
def finishRead (o : OutcomeBlock) (s : State) : State :=
  finishHead ⟨if s.dlp.run.aborting then .aborted else o, .records s.dlp.run.delivered s.fmc.position⟩ s

/-- NOTED End of Data: the Position stays (R100). -/
def finishEndOfData (s : State) : State := finishRead (.sense (senseAtPosition .endOfData s)) s

/-- FAILED MEDIUM/Read Failure with its detail and the Position as the information (R100, R174). -/
def readFailureBlock (d : Option Detail) (dsn : Option Nat) (s : State) : OutcomeBlock :=
  .sense { senseAtPosition .readFailure s with detail := d, dsn := dsn }

/-- An unrecoverable data set is reached: the Position becomes its first object where that is known, the read ends, and the
whole read side is dropped (R59, R100). -/
def failRead (d : Slot) (s : State) : State :=
  let s := { s with fmc.position := d.firstObject.getD s.fmc.position }
  let s := if readExecuting s then finishRead (readFailureBlock d.unrecoverable (some d.dsn) s) s else s
  dropReadSide true s

/-! ## Beginning a collection (R56, R89) -/

/-- The data set that forward reading takes up next (R56). -/
def nextToRead (s : State) : Option Nat :=
  match s.dbf.readRing.getLast? with
  | some d => some (d.dsn + 1)
  | none => s.rch.nextDsn

/-- The data set would lie at or beyond the EOD position (R56). -/
def beyondEod (dsn : Nat) (s : State) : Bool :=
  s.fmc.directoryValid && (match s.fmc.eod.lastDsn with | some n => n < dsn | none => true)

/-- The tape streams with no operation in progress. -/
def streaming (s : State) : Bool := s.moc.motion == .streaming && s.moc.operation.isNone

/-- A collection of a data set begins (R89): a FREE slot becomes READING, the direction READ, and the Next collector moves over where it
holds frames of that data set. -/
def beginCollection (dsn : Nat) (purpose : CollectFor) (s : State) : State :=
  let fromNext := s.rch.next.filter (fun c => c.dsn == dsn && !c.held.isEmpty)
  { s with
    dbf.readRing := s.dbf.readRing ++ [{ state := .reading, dsn := dsn }]
    dbf.direction := .read
    moc.servoLost := 0
    rch.duty := .collect
    rch.current := some (fromNext.getD { dsn := dsn })
    rch.next := none
    rch.offset := .none
    rch.collectFor := purpose
    rch.targetRead := purpose == .target
    rch.resume := if streaming s then some (here s) else s.rch.resume
    rch.lastTaken := if streaming s then s.rch.lastTaken else none
    rch.blanks := 0
    rch.lastEnd := none
    rch.lastEndFinal := false
    rch.nextDsn := some (dsn + 1) }

/-- Read-ahead asks for the next data set (R56). -/
def aheadWants (s : State) : Bool :=
  s.dbf.readAheadActive && (readingSlot s).isNone && decide (s.dbf.readRing.length < s.dbf.readAheadLimit)

/-- Nothing but forward reading holds the Read Channel. -/
def readerFree (s : State) : Bool :=
  (s.rch.duty == .idle || s.rch.duty == .collect || s.rch.duty == .recover) && s.rch.scan.isNone && s.rch.rebuild.isNone
    && s.cah.state == .threaded && s.frg.condition != .faulted && s.dbf.direction != .write && s.frg.resetWork.isNone
    && (match s.dlp.run.phase with | .notBegun => true | .reading => true | .waitFlush => false | .waitStop => true | _ => false)

/-! ## The drain pointer (R41, R46) -/

/-- The header of the data set after the head of the read ring, as far as it is known (R41): a READY slot's, or the one that
the current collector holds; an Unrecoverable slot gives its detail. -/
inductive NextHeader where
  | unknown
  | lost (d : Slot)
  | begins
  | continues
deriving DecidableEq, Repr

def nextHeader (s : State) : NextHeader :=
  match s.dbf.readRing with
  | _ :: n :: _ =>
    match n.state, n.unrecoverable, n.entries with
    | .ready, some _, e :: _ => if n.consistent && e.beginsObject then .begins else .lost n
    | .ready, some _, [] => .lost n
    | .ready, none, e :: _ => if e.beginsObject then .begins else .continues
    | .reading, _, _ => (match s.rch.current.bind (fun c => c.header) with
      | some h => if h.firstBegins then .begins else .continues
      | none => .unknown)
    | _, _, _ => .unknown
  | _ => .unknown

/-- The entries of a slot with their object numbers and uncompressed bytes. -/
def slotObjects (d : Slot) : List ((Entry × Nat) × List Byte) :=
  (numbered (d.firstObject.getD 0) d.entries).zip ((decodeDataSet d.entries d.payload).getD [])

/-- The entry under the drain pointer: the one that begins the Position's object, or that goes on with the record now
delivered; whether it is the last of its data set comes with it (R41, R46). -/
def entryAt (continuing : Bool) (p : Nat) : List ((Entry × Nat) × List Byte) → Option (Entry × List Byte × Bool)
  | [] => none
  | ((e, o), bs) :: rest =>
    if o = p ∧ (e.beginsObject || continuing) then some (e, bs, rest.isEmpty) else entryAt continuing p rest

/-- What the drain pointer meets. -/
inductive Pointer where
  /-- nothing that can be delivered now -/
  | waits
  /-- no slot, or one that does not hold the Position's object -/
  | absent
  | lost (d : Slot)
  | toDrain (d : Slot)
  | filemark (d : Slot) (last : Bool)
  | part (d : Slot) (p : Part) (bytes : List Byte) (last : Bool)
deriving DecidableEq, Repr

/-- Where the drain pointer stands (R41, R46, R59). -/
def pointer (s : State) : Pointer :=
  match s.dbf.readRing with
  | [] => .absent
  | d :: _ =>
    match d.state, d.unrecoverable with
    | .ready, some _ => .lost d
    | .ready, none => .toDrain d
    | .draining, _ =>
      if s.cpe.checked = false then .waits
      else match entryAt (0 < s.dlp.run.decoded) s.fmc.position (slotObjects d) with
        | none => .absent
        | some (.filemark, _, last) => .filemark d last
        | some (.part p, bs, last) => .part d p bs last
    | _, _ => .waits

/-- The bytes of the entries before the drain pointer. -/
def bytesBefore (continuing : Bool) (p : Nat) : List ((Entry × Nat) × List Byte) → List Byte
  | [] => []
  | ((e, o), bs) :: rest => if o = p ∧ (e.beginsObject || continuing) then [] else bs ++ bytesBefore continuing p rest

/-- The window in UNPACKING follows the drain pointer: the uncompressed bytes of the data set up to the one now decoded (R25, R41). It
is kept when a Read Records ends part way. -/
def syncWindow (s : State) : State :=
  match drainingSlot s with
  | some d =>
    if s.cpe.engine = .unpacking ∧ s.cpe.checked = true then
      { s with cpe.window := bytesBefore (0 < s.dlp.run.decoded) s.fmc.position (slotObjects d) ++
          (match pointer s with
           | .part _ _ bs _ => bs.take s.dlp.run.partDone
           | _ => []) }
    else s
  | none => s

/-- Delivery waits for the header that follows the part under the drain pointer (R41). -/
def waitsForHeader (s : State) : Bool :=
  match pointer s with
  | .part _ p _ _ => !p.ends && nextHeader s == .unknown
  | _ => false

/-- A running Read Records needs a data set that no slot holds: no slot is READY, DRAINING or READING, or the part under the
drain pointer waits for the next header (R41, R56; assumption log 14). -/
def readNeeds (s : State) : Bool :=
  readExecuting s && (readingSlot s).isNone && (s.dbf.readRing.isEmpty || (s.dbf.readRing.length == 1 && waitsForHeader s))

/-- Forward reading begins its next data set when it is wanted, or stops read-ahead at the EOD position (R56). A data set whose
frames are all held at its beginning completes at once: `completeCurrent` below sees to that. DESIGN CHOICE: where the Resume Place is
absent while slots stay, as after an Abort, the collection begins at the place after the last frame of the slot at the tail, and so past
frames of the next data set that lie before it (assumption log 51). -/
def beginForward (s : State) : State :=
  if readerFree s = false ∨ (readingSlot s).isSome then s
  else match nextToRead s with
  | none =>
    if aheadWants s ∧ atEndOfData s.fmc.position s = true then { s with dbf.readAheadActive := false } else s
  | some n =>
    if aheadWants s ∨ readNeeds s then
      if beyondEod n s then { s with dbf.readAheadActive := false }
      else if freeSlots s = 0 then s
      else beginCollection n .forward { s with rch.resume := match s.rch.resume with
        | some p => some p
        | none => (s.dbf.readRing.getLast?.bind (fun d => d.endPlace)).map Place.next }
    else s

/-! ## Motion of the reader (R112 to R115, R128) -/

/-- The tape is streaming, or is being brought, for collecting. -/
def collectingInHand (s : State) : Bool :=
  (match s.moc.operation with
   | some op => op.work == .collecting
   | none => s.moc.motion == .streaming && s.moc.work == .collecting) ||
  (match s.moc.waiting with
   | some r => r.work == .collecting
   | none => false)

/-- A reader that needs the tape asks for it (R112). -/
def askReader (s : State) : State :=
  if (s.rch.duty = .collect ∨ s.rch.duty = .recover) ∧ collectingInHand s = false then
    startStream .collecting (collectPlace s) (if s.rch.duty = .recover then some s.rch.passStep else none)
      { s with rch.lastTaken := none }
  else s

/-! ## Completion (R92) -/

/-- The payload held by a collector, in the order of its frames (R2). -/
def framesPayload (held : List HeldFrame) : List PSym :=
  ((List.range 33).map (fun i => match held.find? (fun f => f.index == i) with | some f => f.syms | none => [])).flatten

/-- The slot filled from a header (R43). -/
def Slot.fill (h : Header) (c : Collector) (d : Slot) : Slot :=
  { d with
    state := .ready
    startPlace := c.began
    endPlace := c.lastPlace
    firstObject := some h.firstObject
    objectCount := some (countObjects h.entries)
    objectAfter := some h.after
    figU := some (sumUncompressed h.entries)
    figC := some (sumStored h.entries)
    recovered := 0 < c.passNumber
    entries := h.entries
    payload := framesPayload c.held }

/-- The slot marked Unrecoverable with its detail; a header held gives its objects and entries, consistent or not (R5, R45, R59, R92,
R95). -/
def Slot.lost (detail : Detail) (c : Collector) (d : Slot) : Slot :=
  let h := c.header
  { d with
    state := .ready
    startPlace := c.began
    endPlace := c.lastPlace
    unrecoverable := some detail
    firstObject := h.map (fun x => x.firstObject)
    objectCount := h.map (fun x => countObjects x.entries)
    objectAfter := h.map (fun x => x.after)
    consistent := h.any Header.consistent
    entries := (h.map (fun x => x.entries)).getD [] }

/-- No further data set is begun (R92): the Next collector is emptied and the Resume Place set. -/
def endCollecting (s : State) : State :=
  { s with
    rch.duty := .idle
    rch.current := none
    rch.lastTaken := none
    rch.next := none
    rch.targetRead := false
    rch.offset := .none
    rch.resume := match s.rch.next.bind (fun c => c.copyStart) with
      | some p => some p
      | none => some (here s) }

/-- Read-Ahead becomes STOPPED where the next data set would lie at or beyond the EOD position (R56). -/
def stopAhead (s : State) : State :=
  match nextToRead s with
  | some n => if beyondEod n s then { s with dbf.readAheadActive := false } else s
  | none => s

/-- The tape after the last collection: a backhitch to the Resume Place where the limit holds read-ahead back, and a stop
otherwise (R114, R115). A collection made for a search or a Rebuild pass leaves the tape to that, which goes on. -/
def restReader (s : State) : State :=
  if s.moc.motion ≠ .streaming ∨ s.moc.operation ≠ none then s
  else if s.rch.collectFor = .scanHelp then { s with moc.work := .scanning }
  else if s.rch.collectFor = .rebuildHeader ∨ s.rch.collectFor = .rebuildTail then { s with moc.work := .rebuilding }
  else if s.dbf.readAheadActive then startBackhitch .collecting (s.rch.resume.getD (here s)) s
  else stopTape s

/-- Whether the next data set is begun at once after a clean completion (R56, R92). -/
def goesOn (s : State) : Bool :=
  !s.rch.targetRead && s.rch.collectFor == .forward && s.dbf.readAheadActive
    && decide (s.dbf.readRing.length < s.dbf.readAheadLimit) && decide (0 < freeSlots s)
    && !s.rch.lastEndFinal
    && (match nextToRead s with | some n => !beyondEod n s | none => false)

/-- Forward reading resumes after a ladder: at the copy start of the data set begun next while that is incomplete, and where
the last pass ended when it is complete (R95). With no frame of it held, reading goes on from where the head stands
(assumption log 20). -/
def resumeAfterLadder (s : State) : State :=
  let p := match s.rch.current with
    | some c => if c.held.length = 33 then s.rch.lastEnd.getD (here s) else (match c.copyStart with
      | some p => p
      | none => here s)
    | none => here s
  startStream .collecting p none { s with rch.resume := some p, rch.lastTaken := none }

/-- Nothing is begun after a clean completion (R92). After a ladder the Resume Place is that of the frame that ended the last pass; where
that was a valid EOD frame or the end of the recorded data, no resumption is made and Read-Ahead is STOPPED (R95; assumption log 20). -/
def endReading (ladder : Bool) (s : State) : State :=
  let s' := endCollecting (stopAhead s)
  let s' := if ladder = true ∧ s.rch.lastEndFinal = true then { s' with dbf.readAheadActive := false }
    else if ladder then { s' with rch.resume := s.rch.lastEnd.or s'.rch.resume } else s'
  restReader s'

/-- The collection completes (R92); the fuel bounds the run of data sets that complete one after another because the Next
collector already held them whole. -/
def completeFrom : Nat → State → State
  | 0, s => s
  | n + 1, s =>
    match s.rch.current with
    | none => s
    | some c =>
      if c.held.length < 33 then s
      else
        let h := c.header.getD ⟨c.dsn, 0, 0, []⟩
        let good := h.consistent && (match s.rch.expected with | some e => e == h.firstObject | none => true)
        let m := c.missing.getD 0
        let ladder := s.rch.duty == .recover
        if good then
          let s := changeRead c.dsn (Slot.fill h c) s
          let s := headSample (sampleOf m) { s with
            rch.expected := some h.after
            rch.dataSetsRead := s.rch.dataSetsRead + 1
            rch.recovered := if 0 < c.passNumber then s.rch.recovered + 1 else s.rch.recovered
            rch.offset := .none }
          if goesOn s then
            let ended := s.rch.lastEnd
            let s := beginCollection (c.dsn + 1) .forward s
            let s := if ladder then resumeAfterLadder { s with rch.lastEnd := ended }
              else if s.moc.motion = .streaming ∧ s.moc.operation = none ∧ s.moc.step ≠ s.sgv.target then
                speedChange .collecting (here s) s
              else s
            completeFrom n s
          else endReading ladder s
        else
          let s := changeRead c.dsn (Slot.lost .formatError c) s
          let s := headSample (sampleOf m) { s with
            rch.unrecovered := s.rch.unrecovered + 1
            rch.expected := none
            rch.next := none
            dbf.readAheadActive := false }
          restReader (endCollecting (latch .readFailure s))

/-- A collection that holds all 33 frames completes (R92). -/
def completeCurrent (s : State) : State := completeFrom 98 s

/-! ## Incompleteness and the ladder (R90, R94, R95) -/

/-- The settings of a pass: whether it runs at the speed of pass 0, and its head offset (R94). -/
def passSettings : Nat → Bool × HeadOffset
  | 1 => (true, .none)
  | 2 => (false, .none)
  | 3 => (true, .positive)
  | 4 => (true, .negative)
  | 5 => (false, .positive)
  | _ => (false, .negative)

/-- Recovery pass `n` begins: the tape is brought to a place before the copy start (R94). -/
def beginPass (n : Nat) (c : Collector) (s : State) : State :=
  let set := passSettings n
  let k := if set.1 then min s.rch.pass0Step (capOf s) else 1
  let s := { s with
    rch.duty := .recover
    rch.current := some { c with passNumber := n }
    rch.offset := set.2
    rch.passStep := k
    rch.lastTaken := none
    rch.blanks := 0 }
  startStream .collecting (collectPlace s) (some k) s

/-- A place moved back against its wrap's direction. -/
def Place.back (p : Place) (d : Nat) : Place :=
  if p.wrap % 2 = 0 then { p with lpos := p.lpos - d } else { p with lpos := p.lpos + d }

/-- End of recorded data: the slot returns to FREE, Read-Ahead stops, and a running Read Records that has nothing left to deliver
ends as at EOD (R90); a collection that helps a search leaves the outcome to the search (R97). Forward reading would take up again where
the end was met. -/
def endOfRecorded (c : Collector) (s : State) : State :=
  let p := Place.back (here s) (s.rch.blanks - frameLen)
  let s := endCollecting (freeReadSlot c.dsn { s with dbf.readAheadActive := false })
  let s := restReader { s with rch.nextDsn := some c.dsn, rch.resume := some p }
  if readExecuting s = true ∧ s.rch.scan.isNone = true ∧ (s.dbf.readRing.isEmpty = true ∨ waitsForHeader s = true) then finishEndOfData s
  else s

/-- The ladder ends unrecoverable (R95). -/
def ladderLost (c : Collector) (s : State) : State :=
  let p := here s
  let s := changeRead c.dsn (Slot.lost .unreadable c) s
  let s := headSample 1000 (latch .readFailure { s with
    rch.unrecovered := s.rch.unrecovered + 1
    rch.expected := c.header.map (fun h => h.after)
    rch.next := none
    dbf.readAheadActive := false })
  restReader { endCollecting s with rch.resume := some p }

/-- What meets the incompleteness condition (R90): a frame of d + 2 or higher, a blank stretch, or what ends the data for
certain, which is a valid EOD frame or the end of the last wrap. -/
inductive EndMet where
  | later
  | blank
  | final
deriving DecidableEq, Repr

/-- The incompleteness condition is met (R90). A valid EOD frame and the end of the last wrap stop read-ahead (R56). With no
frame of d held and none of d + 2 met in any pass, it is the end of recorded data. All but a frame of d + 2 or higher end the data (R95). -/
def incomplete (met : EndMet) (s : State) : State :=
  match s.rch.current with
  | none => s
  | some c =>
    let c := { c with laterMet := c.laterMet || met == .later }
    let s := { s with
      rch.lastEnd := some (here s)
      rch.lastEndFinal := met != .later
      dbf.readAheadActive := s.dbf.readAheadActive && met != .final }
    if c.laterMet = false ∧ c.held.isEmpty then endOfRecorded c s
    else if s.rch.duty = .collect then
      beginPass 1 { c with missing := some (33 - c.held.length) } { s with rch.pass0Step := s.moc.step }
    else if c.passNumber < 6 then beginPass (c.passNumber + 1) c s
    else ladderLost c s

/-! ## One frame place (R91, R93) -/

/-- The further of two places, where the first may be absent. -/
def furtherPlace (q : Option Place) (p : Place) : Place :=
  match q with
  | some x => if x.after p then x else p
  | none => p

/-- The place where a data set began, after one more frame of it: the first place on the last of its wraps (R19, R93). -/
def beganAt (q : Option Place) (p : Place) : Place :=
  match q with
  | some x => if x.wrap = p.wrap ∧ p.after x = true then x else p
  | none => p

/-- A frame joins a collector unless its index is held already; the copy start is the place of the first frame of the copy,
and of the first on a later wrap (R91, R93). -/
def Collector.take (p : Place) (index : Nat) (syms : List PSym) (h : Option Header) (c : Collector) : Collector :=
  let c := { c with lastPlace := some (furtherPlace c.lastPlace p), began := some (beganAt c.began p) }
  let c := if c.held.any (fun f => f.index == index) then c
    else { c with held := c.held ++ [⟨index, syms⟩], header := if index = 0 then h else c.header }
  match c.copyStart with
  | none => { c with copyStart := some p }
  | some q => if q.wrap = p.wrap then c else { c with copyStart := some p }

/-- An Abandon frame empties a collector; its copy start becomes the place after the frame (R91). -/
def Collector.abandon (p : Place) (c : Collector) : Collector :=
  { c with held := [], header := none, copyStart := some p.next, lastPlace := none }

/-- The data set that the reader's sequence has reached (R6). -/
def lastMet (c : Collector) (next : Option Collector) : Option Nat :=
  match next with
  | some n => if n.held.isEmpty then (if c.held.isEmpty then (if c.dsn = 0 then none else some (c.dsn - 1)) else some c.dsn)
    else some n.dsn
  | none => if c.held.isEmpty then (if c.dsn = 0 then none else some (c.dsn - 1)) else some c.dsn

/-- A frame of data set `dsn` is taken: into the current collector, into the Next one, passed over, or met as a frame of
d + 2 or higher (R90, R91). -/
def takeData (dsn index : Nat) (syms : List PSym) (h : Option Header) (c : Collector) (s : State) : State :=
  let p := here s
  if dsn = c.dsn then completeCurrent { s with rch.current := some (c.take p index syms h) }
  else if dsn = c.dsn + 1 then
    { s with rch.next := some ((s.rch.next.getD { dsn := dsn }).take p index syms h) }
  else if dsn < c.dsn then s
  else incomplete .later s

/-- A readable frame in COLLECT or RECOVER (R91). -/
def takeReadable (f : TapeFrame) (c : Collector) (s : State) : State :=
  match f with
  | .header _ h => takeData h.dsn 0 [] (some h) c s
  | .payload _ dsn index syms => takeData dsn index syms none c s
  | .abandon _ dsn =>
    if dsn = c.dsn then { s with rch.current := some (c.abandon (here s)) }
    else if dsn = c.dsn + 1 then
      { s with rch.next := some ((s.rch.next.getD { dsn := dsn }).abandon (here s)) }
    else s
  | .eod _ named _ => if eodValid named (lastMet c s.rch.next) then incomplete .final s else s

/-- A blank place lengthens the blank stretch; 73.8 mm of it ends the data where 73.8 mm remained at its beginning (R90). -/
def takeBlank (s : State) : State :=
  let start := if s.rch.blanks = 0 then remaining (here s) else s.rch.blankStart
  let s := { s with rch.blanks := s.rch.blanks + frameLen, rch.blankStart := start }
  if dataSetRoom ≤ s.rch.blanks ∧ dataSetRoom ≤ start then incomplete .blank s else s

/-- The tape has come to the end of a wrap's writable region (R93): a turnaround, or the end of the data on the last wrap. -/
def endOfRegion (s : State) : State :=
  let w := (here s).wrap
  if lastWrap s ≤ w then incomplete .final s
  else
    turnTo .collecting (wrapStart (w + 1)) (if s.rch.duty = .recover then some s.rch.passStep else none)
      { s with rch.blanks := 0, rch.lastTaken := none, rch.resume := some (wrapStart (w + 1)) }

/-- No whole frame place remains after this one in the writable region. -/
def lastPlaceOfRegion (s : State) : Bool := decide (remaining (here s) < 2 * frameLen)

/-- The tape streams for collecting, with no operation in progress. -/
def collectingNow (s : State) : Bool :=
  s.moc.motion == .streaming && s.moc.operation.isNone && s.moc.work == .collecting
    && (s.rch.duty == .collect || s.rch.duty == .recover)

/-- The read head passes a frame place in COLLECT or RECOVER (R90, R91, R93). -/
def readFrame (lpos : Nat) (x : Found) (s : State) : State :=
  if collectingNow s = false then s
  else match s.rch.current with
  | none => s
  | some c =>
    let s := { s with moc.lpos := some lpos }
    let s := { s with rch.lastTaken := some (here s) }
    let s := match x with
      | .readable f => takeReadable f c { s with rch.blanks := 0 }
      | .unreadable => { s with rch.blanks := 0 }
      | .blank => takeBlank s
    if collectingNow s ∧ lastPlaceOfRegion s then endOfRegion s else s

/-! ## Delivery (R38, R41, R100) -/

/-- A DRAINING slot found to be a Format Error (R39). -/
def formatErrorDrained (d : Slot) (s : State) : State :=
  failRead { d with unrecoverable := some .formatError }
    (latch .readFailure { s with rch.unrecovered := s.rch.unrecovered + 1 })

/-- The drain pointer passes the last entry: figures to the governor, and the slot is freed (R41). -/
def deliverSlot (d : Slot) (s : State) : State :=
  freeReadSlot d.dsn (evaluate s.dbf.starvedTime (d.figU.getD 0) (d.figC.getD 0) s)

/-- The working figures of the record now delivered return to 0. -/
def nextRecord (s : State) : State :=
  { s with dlp.run.sent := 0, dlp.run.partDone := 0, dlp.run.decoded := 0, dlp.run.chunk := [] }

/-- A record ends: it is delivered and the Position rises past it; Short and Long end the command (R100). -/
def recordEnds (requested : Nat) (s : State) : State :=
  let n := s.dlp.run.decoded
  let s := nextRecord { s with dlp.run.delivered := s.dlp.run.delivered + 1, fmc.position := s.fmc.position + 1 }
  if n < requested then finishRead (.sense { sense .short with info := some (requested - n) }) s
  else if requested < n then finishRead (.sense { sense .long with info := some (n - requested) }) s
  else s

/-- The rest of a part has been taken, with nothing sent of it or into a Data-In frame; the part is done, and with the part its
record or its data set (R41). -/
def partDone (requested : Nat) (d : Slot) (p : Part) (last : Bool) (s : State) : State :=
  let s := { s with dlp.run.decoded := s.dlp.run.decoded + (p.ulen - s.dlp.run.partDone), dlp.run.partDone := 0 }
  let s := if last then deliverSlot d s else s
  if p.ends then recordEnds requested s else s

/-- Delivery as far as it goes without sending a frame (R41, R59, R100): filemarks, the end of the data, unrecoverable data sets,
void parts, rests that are not sent, and a READY slot taken for unpacking. The fuel bounds the entries passed. DESIGN CHOICE: where the
read ring no longer holds the entry that begins the Position's object, as after an Abort or a Link Reset within a record whose first data
set was freed already, the whole read side is dropped and counted, and the object is sought anew (assumption log 59). -/
def readOn (requested count : Nat) : Nat → State → State
  | 0, s => s
  | n + 1, s =>
    if readExecuting s = false then s
    else if s.dlp.run.delivered = count then finishRead .good s
    else if s.dlp.run.decoded = 0 ∧ s.dlp.run.partDone = 0 ∧ atEndOfData s.fmc.position s = true then finishEndOfData s
    else match pointer s with
    | .waits => s
    | .absent =>
      if s.dbf.readRing.isEmpty then s
      else dropReadSide true (nextRecord s)
    | .lost d => failRead d (nextRecord s)
    | .toDrain d =>
      if d.objectAfter.getD 0 ≤ s.fmc.position ∧ s.dlp.run.decoded = 0
          ∧ holdsObject s.fmc.position (d.firstObject.getD 0) d.entries = false then dropReadSide true s
      else startDraining d.dsn s
    | .filemark d last =>
      let s := { s with fmc.position := s.fmc.position + 1 }
      let s := if last then deliverSlot d s else s
      finishRead (.sense (senseAtPosition .filemark s)) s
    | .part d p _ last =>
      let want := requested - s.dlp.run.sent - s.dlp.run.chunk.length
      let known := if p.ends then NextHeader.continues else nextHeader s
      match known with
      | .unknown => s
      | .lost x => failRead x (nextRecord s)
      | .begins => readOn requested count n (deliverSlot d (nextRecord s))
      | .continues =>
        if want = 0 then readOn requested count n (partDone requested d p last s) else s

/-- The entries in the read ring: a bound on how far delivery can go in one step. -/
def readFuel (s : State) : Nat := (s.dbf.readRing.map (fun d => d.entries.length + 2)).sum + 4

/-- Delivery goes on for the Read Records at the head. -/
def advanceRead (s : State) : State :=
  match headEntry s with
  | some ⟨_, .readRecords l c⟩ => syncWindow (readOn l c (readFuel s) s)
  | _ => s

/-- One DATA-IN frame (R169): bytes of one record, as many as the agreed size allows, ending at the record's last delivered
byte with End of Record set (R165). -/
def sendDataIn (tag : Tag) (requested : Nat) (d : Slot) (p : Part) (bs : List Byte) (last : Bool) (s : State) : State :=
  let left := p.ulen - s.dlp.run.partDone
  let want := requested - s.dlp.run.sent - s.dlp.run.chunk.length
  let n := min (s.dlp.agreed - s.dlp.run.chunk.length) (min want left)
  let bytes := s.dlp.run.chunk ++ (bs.drop s.dlp.run.partDone).take n
  let done := n = want ∨ (p.ends = true ∧ n = left)
  let s := emit (.dataIn tag done bytes) { s with
    dlp.receiveCredits := s.dlp.receiveCredits - 1
    dlp.linkBytes := s.dlp.linkBytes + bytes.length
    dlp.run.sent := s.dlp.run.sent + bytes.length
    dlp.run.chunk := []
    dlp.run.partDone := s.dlp.run.partDone + n
    dlp.run.decoded := s.dlp.run.decoded + n }
  if n = left then partDone requested d p last s else s

/-- The rest of an unended part does not fill the frame that it begins: the frame goes on with the record's bytes in the next data set
(R169). -/
def goesAcross (requested : Nat) (p : Part) (s : State) : Bool :=
  let left := p.ulen - s.dlp.run.partDone
  let want := requested - s.dlp.run.sent - s.dlp.run.chunk.length
  !p.ends && decide (left < want) && decide (s.dlp.run.chunk.length + left < s.dlp.agreed)

/-- DATA_IN_SEND: the drive sends one frame while a Read Records executes, bytes are ready and a receive credit remains. A frame carries as
many bytes as the agreed size allows (R169), and those of the next data set come only once that is DRAINING (R38, R41), which it becomes
when no other slot is (R45): so a frame that an unended part does not fill takes its bytes, with the credit in hand, the drain pointer has
then passed the data set, and the frame goes out when the next one fills it (assumption log 47). -/
def dataInStep (s : State) : State :=
  match headEntry s, pointer s with
  | some ⟨tag, .readRecords l _⟩, .part d p bs last =>
    if readExecuting s = true ∧ s.dlp.run.aborting = false ∧ 0 < s.dlp.receiveCredits ∧ s.dlp.link = .up ∧
        (p.ends = true ∨ nextHeader s = .continues) ∧ s.dlp.run.sent < l then
      syncWindow (if goesAcross l p s then
          partDone l d p last { s with dlp.run.chunk := s.dlp.run.chunk ++ bs.drop s.dlp.run.partDone }
        else sendDataIn tag l d p bs last s)
    else s
  | _, _ => s

/-- CHECK_DECODE_DONE with a sound payload: a clean decode lets delivery begin, any fault of R38 is a Format Error (R38, R39). -/
def checkDecode (s : State) : State :=
  match drainingSlot s with
  | some d =>
    if s.cpe.checked then s
    else if (decodeDataSet d.entries d.payload).isSome then syncWindow { s with cpe.checked := true }
    else formatErrorDrained d s
  | none => s

/-! ## The reader settles -/

/-- What follows every step: the next data set is begun where it is wanted, and the tape is asked for (R56, R89, R112). -/
def settleReader (s : State) : State := askReader (completeCurrent (beginForward s))

end Sys2Proof.Machine
end

