-- ==== Sys2Proof/Machine/Scan.lean ====
section
/-! DEFINITION. Finding an object (R97, R98, R100, R102, R103, R19) by header scans, and the Rebuild pass (R15 to R17). -/

namespace Sys2Proof.Machine

/-! ## The ends of a search -/

/-- A search, and the Read Channel with it, ends: duty IDLE, no scan. -/
def endSearch (s : State) : State :=
  { s with rch.scan := none, rch.duty := if s.rch.duty = .scan then .idle else s.rch.duty }

/-- A write command that fails before its append point is set: what it has received is passed over, and no record of it is
Accepted (R80). -/
def passOverHead (s : State) : State := dropPartial (headTag s) s

/-- What is known of the place where forward reading goes on is known no more. -/
def forgetPlace (s : State) : State := { s with rch.expected := none, rch.nextDsn := none, rch.resume := none }

/-- The search in hand is for the Position's data set, and no Read Records executes: read-ahead makes it for itself (R56). -/
def searchesAhead (s : State) : Bool := s.rch.scan.any (fun c => c.goal == .position) && !readExecuting s

/-- A search fails: FAILED MEDIUM/Read Failure, Retry Allowed yes, the tape stops (R97, R19). The Position becomes `p` where the
rule gives one. A search that read-ahead makes for itself has no command to fail: Read-Ahead becomes STOPPED. -/
def failSearch (p : Option Nat) (s : State) : State :=
  let ahead := searchesAhead s
  let stops := s.rch.scan.any (fun c => c.goal == .position)
  let s := forgetPlace (stopTape (endSearch { s with dbf.readAheadActive := s.dbf.readAheadActive && !stops }))
  if ahead then s
  else
    let s := { s with fmc.position := p.getD s.fmc.position }
    endHead (readFailureBlock (some .unreadable) none s) (passOverHead s)

/-! ## Beginning a scan (R97, R98) -/

/-- A header scan runs from a place (R97), at the step that it takes as it begins and keeps when it is taken up again (R111). -/
def beginScan (c : Scan) (p : Place) (s : State) : State :=
  let k := if c.step = 0 then scanStep s else c.step
  startStream .scanning p (some k)
    { s with rch.duty := .scan, rch.scan := some { c with step := k, began := [], blanks := 0, blankStart := 0 } }

/-- The object that a search is to find, where it names one. -/
def goalObject (s : State) : ScanGoal → Nat
  | .object t => t
  | .position => s.fmc.position
  | .append n _ => n
  | .space _ _ _ reached _ => reached
  | .settled p _ _ => p

/-- Whether the counting of filemarks makes the search begin at the wrap's start (R19). -/
def ScanGoal.fromStart : ScanGoal → Bool
  | .append _ _ => true
  | _ => false

/-- The object number that follows the data of a directory entry's wrap. -/
def nextObjectOf (e : DirEntry) (s : State) : Nat := objectOfNext e s.fmc.directory s.fmc.eod.nextObject

/-- A header that stands for a data set of which none was read: it holds nothing, and `o` is its first object. -/
def marker (dsn o : Nat) (p : Place) : SeenHeader := ⟨⟨dsn, o, 0, []⟩, p⟩

/-- At the start of a wrap its first data set comes first (R9, R12). -/
def dueAtStart (e : DirEntry) : Due := ⟨e.firstDsn, some e.object, wrapStart e.wrap⟩

/-- At BOT, DSN 0 comes first, and object 0 with it (R1, R2). -/
def dueAtBot : Due := ⟨0, some 0, botPlace⟩

/-- The data set that the scan expects next in its direction: the neighbour of the last one whose header was read, or the one that was
due when it began. -/
def Scan.expects (c : Scan) : Option Due :=
  match c.last with
  | some l =>
    if c.forward then some ⟨l.header.dsn + 1, some l.header.after, l.place⟩
    else if l.header.dsn = 0 then none
    else some ⟨l.header.dsn - 1, some l.header.firstObject, l.place⟩
  | none => c.due

/-- The Resume Place is that of the frame that ended the last pass of a ladder, which may lie past the header of the data set next to be
read (R90, R95). -/
def resumesPast (s : State) : Bool := s.rch.lastEnd.isSome && s.rch.lastEnd == s.rch.resume

/-- The data set that comes next at a place known to lie before it, with its first object: the one next to be read, where none is being
collected and no ladder ended at the place; the one being collected, while no frame of it or of the next is held; and the next one, where
the header of the one being collected is held, at the first place where a frame of the next was met, or in pass 0 where the head is
(R98). -/
def knownNext (s : State) : Option Due :=
  match s.rch.current, s.rch.expected, s.rch.resume, s.rch.nextDsn with
  | none, some o, some p, some d => if resumesPast s then none else some ⟨d, some o, p⟩
  | some c, o, p, _ =>
    let next := s.rch.next.bind (fun n => n.copyStart)
    (match c.header, o, p with
     | some h, _, _ =>
       (next.or (if s.rch.duty = .collect then some (here s) else none)).map (fun q => ⟨c.dsn + 1, some h.after, q⟩)
     | none, some x, some q => if c.copyStart.isNone ∧ next.isNone then some ⟨c.dsn, some x, q⟩ else none
     | none, _, _ => none)
  | _, _, _, _ => none

/-- The place from which reading would go on, where the data set there is known to begin below object `t` (R98). -/
def knownPlace (t : Nat) (s : State) : Option Due := (knownNext s).filter (fun x => x.object.any (fun o => decide (o < t)))

/-- A search with Directory Valid set (R98): from the place from which reading would go on, where that is known to lie on the wanted wrap
and before the object; else from the nominal place of the estimate; from the wrap's start where filemarks are counted (R19). -/
def searchWrap (g : ScanGoal) (t : Nat) (e : DirEntry) (known : Option Due) (s : State) : State :=
  if g.fromStart then beginScan { goal := g, due := some (dueAtStart e) } (wrapStart e.wrap) s
  else
    match known.filter (fun x => x.place.wrap == e.wrap) with
    | some x => beginScan { goal := g, due := some x } x.place s
    | none => beginScan { goal := g } (nominalPlace (estimateDsn t e (nextObjectOf e s)) e) s

/-- A search for the object of a goal begins: by the Tape Directory with Directory Valid set, and otherwise from the start of
the wrap on which the tape stands, or from BOT for object 0 (R98, R100, R102, R104). -/
def beginSearch (g : ScanGoal) (known : Option Due) (s : State) : State :=
  let t := goalObject s g
  if s.fmc.directoryValid then
    match entryFor t s.fmc.directory with
    | some e => searchWrap g t e known s
    | none => failSearch none { s with rch.scan := some { goal := g } }
  else if t = 0 ∨ (here s).wrap = 0 then beginScan { goal := g, due := some dueAtBot } botPlace s
  else beginScan { goal := g } (wrapStart (here s).wrap) s

/-- The directory entry whose wrap comes before the chosen one (R98). -/
def entryBefore (t : Nat) (s : State) : Option DirEntry :=
  (entryFor t s.fmc.directory).bind (fun e => if e.wrap = 0 then none else entryOfWrap (e.wrap - 1) s.fmc.directory)

/-- The filemarks counted so far by a search that goes back to another wrap are forgotten (R19). -/
def ScanGoal.restart : ScanGoal → ScanGoal
  | .append n _ => .append n 0
  | g => g

/-- The search falls back (R98 step 5): to the wrap's start, and then to the last three data sets of the wrap before. With
Directory Valid clear it goes back to BOT (R100). -/
def fallBack (c : Scan) (s : State) : State :=
  let t := goalObject s c.goal
  if s.fmc.directoryValid then
    match c.fallback, c.goal.fromStart, entryFor t s.fmc.directory, entryBefore t s with
    | 0, false, some e, _ => beginScan { goal := c.goal, fallback := 1, due := some (dueAtStart e) } (wrapStart e.wrap) s
    | 0, true, _, some e =>
      beginScan { goal := c.goal.restart, fallback := 2, due := some (dueAtStart e) } (wrapStart e.wrap) s
    | 1, _, _, some e =>
      let k := max e.firstDsn (e.lastDsn - 2)
      let p := nominalPlace k e
      beginScan { goal := c.goal, fallback := 2, due := some ⟨k, none, p⟩ } p s
    | _, _, _, _ => failSearch none s
  else if c.fallback = 0 then beginScan { goal := c.goal, fallback := 1, due := some dueAtBot } botPlace s
  else failSearch none s

/-! ## What a search finds -/

/-- The found data set is taken up: what is read forward next is that data set, from its place, with its first object expected
(R56, R103). -/
def takeFound (h : SeenHeader) (s : State) : State :=
  { s with
    rch.nextDsn := some h.header.dsn
    rch.resume := some h.place
    rch.expected := some h.header.firstObject }

/-- The wrap whose last data set comes before data set `d` ends with an unended part, by its Tape Directory entry (R12, R19). -/
def wrapEndsUnended (d : Nat) (s : State) : Bool := s.fmc.directory.any (fun e => e.lastDsn + 1 == d && e.unended)

/-- The data set before one whose header is met ends with an unended part: by its own header, where that was the last one read, or by the
Tape Directory, where it is the last of its wrap (R19). -/
def endsUnended (c : Scan) (h : SeenHeader) (s : State) : Bool :=
  c.last.any (fun l => l.header.dsn + 1 == h.header.dsn && lastUnended l.header.entries) || wrapEndsUnended h.header.dsn s

/-- The data set of an append point is found: it is kept, with what is known of the end of the data set before it (R19). -/
def foundAppend (before : Bool) (c : Scan) (h : SeenHeader) (s : State) : State :=
  { s with
    rch.scan := some { c with last := some h, unendedBefore := before }
    rch.duty := .idle
    dlp.run.phase := .rereading }

/-- A data set is found (R98): for a Read Records it is collected from its first frame (R89, R115); for an append it is kept for the
append point; for a Locate or a Space the tape is backhitched before its first frame. -/
def foundData (c : Scan) (h : SeenHeader) (s : State) : State :=
  match c.goal with
  | .position =>
    let s := endSearch (takeFound h s)
    if freeSlots s = 0 then s
    else { beginCollection h.header.dsn .forward s with rch.resume := some h.place, rch.lastTaken := none }
  | .append _ _ => foundAppend (endsUnended c h s) c h s
  | _ =>
    startBackhitch .found h.place
      { s with rch.scan := some { c with last := some h }, rch.duty := .idle, dlp.run.phase := .moving }

/-- The tape is brought to the EOD position's place (R103). -/
def seekEod (c : Scan) (s : State) : State :=
  startSeek .toEod s.fmc.eod.place
    { s with rch.scan := some { c with last := none }, rch.duty := .idle, dlp.run.phase := .moving }

/-- The outcome of a Space that stopped (R102). -/
def spaceOutcome (r : Option Reason) (residue : Nat) : OutcomeBlock :=
  match r with
  | none => .good
  | some x => .sense { sense x with info := some residue }

/-- A Locate or Space ends where the tape has been brought (R102, R103): the Position, the reply, and the reading that follows. -/
def arriveFound (s : State) : State :=
  match s.rch.scan with
  | none => s
  | some c =>
    let s := endSearch s
    let s := match c.last with
      | some h => takeFound h s
      | none => { s with rch.nextDsn := none, rch.resume := none, rch.expected := some s.fmc.eod.nextObject }
    match c.goal with
    | .object t =>
      if s.fmc.directoryValid = true ∧ s.fmc.eod.nextObject ≤ t then
        let s := { s with fmc.position := s.fmc.eod.nextObject }
        endHead (if t = s.fmc.eod.nextObject then .good else .sense (sense .endOfData)) s
      else
        let s := endHead .good { s with fmc.position := t }
        match c.last with
        | some h => if freeSlots s = 0 then s else beginCollection h.header.dsn .target s
        | none => s
    | .settled p r residue => endHead (spaceOutcome r residue) { s with fmc.position := p, dbf.readAheadActive := true }
    | _ => endHead .good s

/-! ## Space (R102) -/

/-- The objects that pass in a data set: those of its entries, each once. The object of a last part with Ends no is left to the
data set that goes on with it or begins it afresh (R4, R5). -/
def passObjects (h : Header) : List (Nat × Bool) :=
  let all := (numbered h.firstObject h.entries).map (fun x => (x.2, x.1.isFilemark))
  let firstOnly := all.filter (fun x => x.1 = h.firstObject)
  let later := (begunObjects h.firstObject h.entries).filter (fun x => x.1 ≠ h.firstObject)
  let objs := firstOnly.take 1 ++ later
  if lastUnended h.entries then objs.filter (fun x => x.1 ≠ h.after) else objs

/-- The records and filemarks of a whole wrap, from the Tape Directory (R102). -/
def wrapFigures (e : DirEntry) (s : State) : Nat × Nat :=
  let marks := (match entryOfWrap (e.wrap + 1) s.fmc.directory with
    | some n => n.filemarksBefore
    | none => s.fmc.filemarks) - e.filemarksBefore
  (nextObjectOf e s - e.object - marks, marks)

/-- Whether a Space passes over a whole wrap without stopping in it. -/
def passesWrap (kind : SpaceKind) (left : Nat) (e : DirEntry) (s : State) : Bool :=
  let f := wrapFigures e s
  match kind with
  | .records => f.2 == 0 && decide (f.1 < left)
  | .filemarks => decide (f.2 < left)
  | .eod => true

def countOf (kind : SpaceKind) (f : Nat × Nat) : Nat :=
  match kind with
  | .records => f.1
  | _ => f.2

/-- Whole wraps passed from object `reached`: the entries still ahead, in the direction of the Space (R102). -/
def skipWraps (kind : SpaceKind) (dir : Dir) (s : State) : List DirEntry → Nat → Nat → Nat × Nat
  | [], left, reached => (left, reached)
  | e :: rest, left, reached =>
    match dir with
    | .forward =>
      if e.object = reached ∧ passesWrap kind left e s = true then
        skipWraps kind dir s rest (left - countOf kind (wrapFigures e s)) (nextObjectOf e s)
      else (left, reached)
    | .backward =>
      if nextObjectOf e s = reached ∧ passesWrap kind left e s = true then
        skipWraps kind dir s rest (left - countOf kind (wrapFigures e s)) e.object
      else (left, reached)

/-- The stopping point of a Space is fixed (R102); its data set is the one whose header has just been read, or is sought further
on, or the end of data. -/
def settle (p : Nat) (r : Option Reason) (residue : Nat) (h : Option SeenHeader) (c : Scan) (s : State) : State :=
  let c := { c with goal := .settled p r residue, last := h }
  if s.fmc.directoryValid = true ∧ s.fmc.eod.nextObject ≤ p then seekEod c s
  else match h with
  | some x => if x.header.holds p then foundData c x s else { s with rch.scan := some c }
  | none => { s with rch.scan := some c }

/-- Counting goes on through a data set's objects (R102). -/
def countHeader (kind : SpaceKind) (dir : Dir) (left reached : Nat) (h : SeenHeader) (c : Scan) (s : State) : State :=
  let objs := passObjects h.header
  let objs := if s.fmc.directoryValid then objs.filter (fun x => x.1 < s.fmc.eod.nextObject) else objs
  match (match dir with
    | .forward => walkForward kind objs left reached
    | .backward => walkBackward kind objs.reverse left reached) with
  | .done p => settle p none 0 (some h) c s
  | .filemark p residue => settle p (some .filemark) residue (some h) c s
  | .more left' p =>
    let go := { c with goal := .space kind dir left' p true, last := some h }
    match dir with
    | .forward =>
      if s.fmc.directoryValid = true ∧ s.fmc.eod.nextObject ≤ p then settle p (some .endOfData) left' (some h) c s
      else { s with rch.scan := some go }
    | .backward => if p = 0 then settle 0 (some .beginning) left' (some h) c s else { s with rch.scan := some go }

/-- Where the data of a wrap ends: at the EOD position's place on its wrap, and elsewhere at the end of the wrap (R13). -/
def dataEnd (w : Nat) (s : State) : Place := if w = s.fmc.eod.wrap then s.fmc.eod.place else wrapEnd w

/-- A Space goes on at the next wrap that it does not pass whole (R102): `ahead` are the directory entries still ahead. A scan backward
begins where the wrap's data ends, so that it meets nothing beyond the EOD position. -/
def spaceOnward (kind : SpaceKind) (dir : Dir) (left reached : Nat) (ahead : List DirEntry) (c : Scan) (s : State) : State :=
  let (left', p) := skipWraps kind dir s ahead left reached
  let c := { c with goal := .space kind dir left' p true, last := none, due := none, step := 0 }
  match dir with
  | .forward =>
    if s.fmc.eod.nextObject ≤ p then settle p (some .endOfData) left' none c s
    else match entryFor p s.fmc.directory with
      | some e => beginScan { c with due := some (dueAtStart e) } (wrapStart e.wrap) s
      | none => failSearch none s
  | .backward =>
    if p = 0 then
      -- everything below has been passed: the data set of object 0 is sought from BOT
      beginScan { c with goal := .settled 0 (some .beginning) left', forward := true, due := some dueAtBot } botPlace s
    else match (s.fmc.directory.filter (fun e => e.object < p)).getLast? with
      | some e =>
        let p := dataEnd e.wrap s
        beginScan { c with forward := false, due := some ⟨e.lastDsn, some (nextObjectOf e s), p⟩ } p s
      | none => failSearch none s

/-- A backward Space turns the scan around at the place where it stands. -/
def turnBack (kind : SpaceKind) (left reached : Nat) (h : Option SeenHeader) (c : Scan) (s : State) : State :=
  let p := match h with | some x => x.place | none => here s
  let c := { c with goal := .space kind .backward left reached true, forward := false, last := h, due := none }
  match h with
  | none => beginScan c p s
  | some x =>
    let s := countHeader kind .backward left reached x c s
    match s.rch.scan, s.rch.duty with
    | some c', .scan => beginScan { c' with forward := false } p s
    | _, _ => s

/-! ## Headers met (R97) -/

/-- Whether the decision of the search rests on what lies between the last header and this one (R97). -/
def rests (c : Scan) (h : Header) (s : State) : Bool :=
  let t := goalObject s c.goal
  match c.goal with
  | .append _ _ => true
  | .space _ _ _ _ true => true
  | .space _ .backward _ _ false => false
  | .settled _ _ _ => if c.forward then !h.holds t && h.passed t else !h.holds t && decide (h.after ≤ t)
  | _ => !h.holds t && h.passed t

/-- A data set whose header could not be read is collected with the ladder to help the search (R97): `x` is what is known of it, `p` a
place before it, `h` the header met beyond it. A search for an append point, which may find slots in the read ring, drops them first, so
that the ring holds its slots in DSN order (R46). -/
def seekHelp (x : Due) (p : Place) (h : Option SeenHeader) (c : Scan) (s : State) : State :=
  let s := if s.dbf.readRing.isEmpty then s else dropReadSide true s
  let s := { s with
    rch.scan := some { c with beyondGap := h }
    rch.expected := if c.forward then x.object else none
    rch.next := none }
  let s := beginCollection x.dsn .scanHelp s
  { s with rch.resume := some p }

/-- A header that shows the object of the search already passed (R97, R98): the first header met makes the search fall back; after
another header, no data set between holds the object, and the search fails. -/
def searchPassed (c : Scan) (s : State) : State :=
  match c.last with
  | none => fallBack c s
  | some l => failSearch (some l.header.after) s

/-- A data set begins object `t` by its last part alone, which may be void: the next data set, where there is one, goes on with the
object or begins it afresh (R5, R19). -/
def mayBeVoid (t : Nat) (h : Header) (s : State) : Bool :=
  h.holds t && !h.opens t && lastUnended h.entries && h.after == t && some h.dsn != s.fmc.eod.lastDsn

/-- A header met in the search for the append point at object `n`, with `m` filemarks counted below the last header read (R19). A data
set whose last part alone begins `n` is the one only where the next data set goes on with it; one that begins `n` with its first entry is
an overwrite at its boundary, whatever void part comes before it. -/
def stepAppend (n m : Nat) (c : Scan) (h : SeenHeader) (s : State) : State :=
  match c.last.filter (fun l => mayBeVoid n l.header s) with
  | some l =>
    if h.header.opens n then
      let below := if l.place.wrap = h.place.wrap then m + countFilemarks l.header.entries else 0
      foundAppend true { c with goal := .append n below } h s
    else if h.header.passed n then foundAppend c.unendedBefore c l s
    else failSearch (some l.header.after) s
  | none =>
    if mayBeVoid n h.header s then
      { s with rch.scan := some { c with last := some h, unendedBefore := endsUnended c h s } }
    else if h.header.holds n then foundData c h s
    else if h.header.passed n then searchPassed c s
    else { s with rch.scan := some { c with last := some h, goal := .append n (m + countFilemarks h.header.entries) } }

/-- A header taken by the search (R97, R98). -/
def stepHeader (c : Scan) (h : SeenHeader) (s : State) : State :=
  let t := goalObject s c.goal
  let keep := { s with rch.scan := some { c with last := some h } }
  match c.goal with
  | .space kind dir left reached true => countHeader kind dir left reached h c s
  | .space kind .forward left reached false =>
    if h.header.holds t then countHeader kind .forward left reached h { c with goal := .space kind .forward left reached true } s
    else if h.header.passed t then searchPassed c s
    else keep
  | .space kind .backward left reached false =>
    if h.header.holds t ∨ h.header.passed t then turnBack kind left reached (some h) c s else keep
  | .settled _ _ _ =>
    if h.header.holds t then foundData c h s
    else if c.forward ∧ h.header.passed t then failSearch (c.last.map (fun l => l.header.after)) s
    else keep
  | .append n m => stepAppend n m c h s
  | _ =>
    if h.header.holds t then foundData c h s
    else if h.header.passed t then searchPassed c s
    else keep

/-- The header met follows the one that the scan expects, where no other lies between: its first object is the object that R5 asks for
(the object after the data set before it, which is that of an unended last part too). -/
def fitsBefore (x : Due) (h : Header) : Bool := match x.object with | some o => o == h.firstObject | none => true

/-- A header of another data set than the last one read, met in a scan (R97). Headers that run against the direction of the scan are
passed over, and so, as one that cannot be read, is a header whose first object is not the one expected (R5). A gap in the DSNs on which
the decision rests has its data set collected. -/
def newHeader (c : Scan) (h : SeenHeader) (s : State) : State :=
  match c.expects with
  | none => stepHeader c h s
  | some x =>
    if c.forward then
      if h.header.dsn < x.dsn then (if c.last.isSome then s else stepHeader c h s)
      else if x.dsn < h.header.dsn then
        (if rests c h.header s = true then seekHelp x x.place (some h) c s else stepHeader c h s)
      else if fitsBefore x h.header then stepHeader c h s
      else s
    else if x.dsn < h.header.dsn then s
    else if h.header.dsn < x.dsn then
      (if rests c h.header s = true then seekHelp x h.place (some h) c s else stepHeader c h s)
    else match x.object with
    | some o => if c.last.isSome ∧ o ≠ h.header.after then failSearch (some h.header.after) s else stepHeader c h s
    | none => stepHeader c h s

/-- A header is read at a place in a scan: it returns the Servo Lost Count to 0, unless it is read again (R119). -/
def headerRead (p : Place) (s : State) : State :=
  { s with
    moc.servoLost := if s.rch.scan.bind (fun c => c.lastRead) = some p then s.moc.servoLost else 0
    rch.scan := s.rch.scan.map (fun c => { c with lastRead := some p }) }

/-- A readable header is met in a scan (R97). One that is not consistent is passed over as one that cannot be read (R5); repeats are
passed over too, and with Directory Valid set so are headers beyond the end of data. -/
def scanHeader (h : SeenHeader) (s : State) : State :=
  match s.rch.scan with
  | none => s
  | some c =>
    if beyondEod h.header.dsn s = true ∨ h.header.consistent = false then s
    else match c.last with
    | none => newHeader c h s
    | some l =>
      if h.header.dsn ≠ l.header.dsn then newHeader c h s
      else if c.forward = true ∧ l.place.wrap ≠ h.place.wrap then
        { s with rch.scan := some { c with last := some { l with place := h.place } } }
      else s

/-- The data set that a scan forward expects next, where frames of it, or of one after it, have been met with no header of it read. -/
def unreadDue (c : Scan) : Option Due :=
  c.expects.filter (fun x => c.forward && c.began.head?.any (fun b => decide (x.dsn ≤ b.1)))

/-- The end of the data is met in a scan: a valid EOD frame, 73.8 mm of blank, or the end of the last wrap (R97). With Directory
Valid clear it fixes the end of data at the object after the last header read (R102); a scan from a later wrap that has read none goes
back to BOT (R100; assumption log 27). A Read Records ends there, and Read-Ahead becomes STOPPED (R56, R100). -/
def scanEnd (s : State) : State :=
  match s.rch.scan with
  | none => s
  | some c =>
    let e := match c.last with | some l => l.header.after | none => goalObject s c.goal
    let dsn := match c.last with | some l => l.header.dsn + 1 | none => 0
    let here' := marker dsn e (here s)
    if s.fmc.directoryValid then
      match c.expects, s.fmc.eod.lastDsn with
      | some x, some n => if c.forward = true ∧ x.dsn ≤ n then seekHelp x x.place none c s else failSearch x.object s
      | none, _ => if c.forward then fallBack c s else failSearch none s
      | some _, none => failSearch none s
    else if c.expects.isNone ∧ c.forward = true then fallBack c s
    else match c.goal with
      | .position =>
        let reads := readExecuting s
        let s := stopTape (endSearch { s with dbf.readAheadActive := false })
        let s := { s with rch.nextDsn := some dsn, rch.resume := some here'.place, rch.expected := some e }
        if reads then finishEndOfData s else s
      | .space kind .backward left reached false => turnBack kind left (min reached e) c.last c s
      | .space _ _ left reached _ => foundData { c with goal := .settled (max reached e) (some .endOfData) left } here' s
      | .settled _ r residue => foundData { c with goal := .settled e r residue } here' s
      | _ => failSearch none s

/-- The data ends for a scan with no valid EOD frame, or with one that names a data set of which no header was read: a data set whose
frames were met and whose header was not read is collected first, since where the data ends rests on it (R6, R97). -/
def scanGap (s : State) : State :=
  match s.rch.scan with
  | none => s
  | some c =>
    match unreadDue c with
    | some x => if beyondEod x.dsn s then scanEnd s else seekHelp x x.place none c s
    | none => scanEnd s

/-- A stretch of blank places that ends the data for a forward scan (R90, R97). -/
def scanBlank (c : Scan) (s : State) : State :=
  let start := if c.blanks = 0 then remaining (here s) else c.blankStart
  let c := { c with blanks := c.blanks + frameLen, blankStart := start }
  let s := { s with rch.scan := some c }
  if c.forward = true ∧ dataSetRoom ≤ c.blanks ∧ dataSetRoom ≤ start then scanGap s else s

/-- The end of a wrap in a scan (R97, R117): a turnaround to the next wrap, or back to the one before; a Space passes whole
wraps by the Tape Directory (R102). At BOT, a data set whose header the backward scan has not read is collected first. -/
def scanWrap (c : Scan) (s : State) : State :=
  let w := (here s).wrap
  let step := some c.step
  let c := { c with blanks := 0 }
  if c.forward then
    if lastWrap s ≤ w then scanGap s
    else
      let next := s.fmc.directory.filter (fun e => w < e.wrap)
      match c.goal with
      | .space kind .forward left reached true =>
        let (_, p) := skipWraps kind .forward s next left reached
        if s.fmc.directoryValid = true ∧ p ≠ reached then spaceOnward kind .forward left reached next c s
        else turnTo .scanning (wrapStart (w + 1)) step { s with rch.scan := some c }
      | _ => turnTo .scanning (wrapStart (w + 1)) step { s with rch.scan := some c }
  else if w = 0 then
    match c.expects, c.goal, c.last with
    | some x, _, _ => seekHelp x botPlace none c s
    | none, .space _ _ left _ _, some l => foundData { c with goal := .settled 0 (some .beginning) left } l s
    | none, _, _ => failSearch none s
  else
    let prev := (s.fmc.directory.filter (fun e => e.wrap < w)).reverse
    match c.goal with
    | .space kind .backward left reached true =>
      let (_, p) := skipWraps kind .backward s prev left reached
      if s.fmc.directoryValid = true ∧ p ≠ reached then spaceOnward kind .backward left reached prev c s
      else turnTo .scanning (wrapEnd (w - 1)) step { s with rch.scan := some c }
    | _ => turnTo .scanning (wrapEnd (w - 1)) step { s with rch.scan := some c }

/-- The tape streams for a header scan. -/
def scanningNow (s : State) : Bool :=
  s.moc.motion == .streaming && s.moc.operation.isNone && s.moc.work == .scanning && s.rch.duty == .scan && s.rch.scan.isSome

/-- The end of the wrap's writable region in the direction of the scan. -/
def scanAtEnd (forward : Bool) (p : Place) : Bool :=
  if forward then decide (remaining p < 2 * frameLen) else decide (offsetOf p < frameLen)

/-- What an EOD frame is for a scan. -/
inductive EodFor where
  | valid
  | stale
  /-- it names the last data set met, of which no header was read -/
  | unread
  /-- nothing before it on tape is known -/
  | unknown
deriving DecidableEq, Repr

/-- Whether an EOD frame is valid for a scan (R6): it names the last data set whose header was read; where none was read, the last one on
tape: by a valid Tape Directory, and with Directory Valid clear the one whose frames were met last, or none in a scan from BOT that met
no frame. Where no header of the data set named was read, that is sought first. A scan from a later wrap that has met nothing knows
nothing of what lies before (assumption log 27). -/
def scanEodFor (named : Option Nat) (c : Scan) (s : State) : EodFor :=
  let met := c.began.head?.map (fun b => b.1)
  let byMet : EodFor := if eodValid named met then .unread else .stale
  match c.last with
  | some l => if eodValid named (some l.header.dsn) then .valid else if (unreadDue c).isSome then byMet else .stale
  | none =>
    if s.fmc.directoryValid then (if eodValid named s.fmc.eod.lastDsn then .valid else .stale)
    else if met.isSome then byMet
    else if c.due.isSome then (if eodValid named none then .valid else .stale)
    else .unknown

/-- A frame of a data set is met in a scan forward: the first of it on its wrap fixes where it began (R19). A rewrite that follows a frame
of a later data set changes nothing. -/
def Scan.meet (dsn : Nat) (p : Place) (c : Scan) : Scan :=
  if c.forward = false ∨ c.began.any (fun b => decide (dsn ≤ b.1) && b.2.wrap == p.wrap) = true then c
  else { c with began := ((dsn, p) :: c.began).take 3 }

/-- Where the data set whose header is met at a place began: the first place of a frame of it that a scan forward has met, and
otherwise the place of the header (R19; assumption log 24). -/
def Scan.beganAt (dsn : Nat) (p : Place) (c : Scan) : Place :=
  ((c.began.find? (fun b => c.forward && b.1 == dsn && b.2.wrap == p.wrap)).map (fun b => b.2)).getD p

/-- The head passes a frame place in a header scan (R97). -/
def scanFrame (lpos : Nat) (x : Found) (s : State) : State :=
  if scanningNow s = false then s
  else match s.rch.scan with
  | none => s
  | some c =>
    let s := { s with moc.lpos := some lpos }
    let clear := { s with rch.scan := some { c with blanks := 0 } }
    let s := match x with
      | .readable (.header _ h) => scanHeader ⟨h, (c.meet h.dsn (here s)).beganAt h.dsn (here s)⟩ (headerRead (here s)
          { s with rch.scan := some { (c.meet h.dsn (here s)) with blanks := 0 } })
      | .readable (.payload _ dsn _ _) => { s with rch.scan := some { (c.meet dsn (here s)) with blanks := 0 } }
      | .readable (.eod _ named _) =>
        if c.forward then
          (match scanEodFor named c s with
           | .valid => scanEnd clear
           | .stale => clear
           | .unread => scanGap clear
           | .unknown => fallBack c clear)
        else clear
      | .readable (.abandon _ _) => clear
      | .unreadable => clear
      | .blank => scanBlank c s
    match s.rch.scan with
    | some c' => if scanningNow s = true ∧ scanAtEnd c'.forward (here s) = true then scanWrap c' s else s
    | none => s

/-! ## The help of a collection (R97) -/

/-- The header as a slot holds it. -/
def headerOf (d : Slot) : Header := ⟨d.dsn, d.firstObject.getD 0, d.entries.length, d.entries⟩

/-- The scan goes on after the help of a collection: the header beyond the gap is taken, and the tape is asked for again. -/
def scanAgain (s : State) : State :=
  match s.rch.scan with
  | none => s
  | some c =>
    if s.rch.duty ≠ .scan then s
    else match c.beyondGap with
    | none => beginScan c ((c.last.map (fun l => l.place)).getD (here s)) s
    | some b =>
      let s := scanHeader b { s with rch.scan := some { c with beyondGap := none } }
      match s.rch.scan, s.rch.duty with
      | some c', .scan => beginScan c' b.place s
      | _, _ => s

/-- The data set that the search had collected is lost: the headers on either side must show that the wanted object lies within it, and
then it counts as found, which they do not where the data set before it may hold that object itself; otherwise the search fails at its first object, which is the object after the data set before it (R97). -/
def helpLost (c : Scan) (x : Due) (s : State) : State :=
  let t := goalObject s c.goal
  let before := if c.forward then x.object else c.beyondGap.map (fun a => a.header.after)
  let adjacent := c.beyondGap.any (fun a => if c.forward then a.header.dsn == x.dsn + 1 else a.header.dsn + 1 == x.dsn)
  let passed := if c.forward then c.beyondGap.any (fun a => a.header.passed t)
    else match c.last with
      | some l => l.header.passed t
      | none => x.object.any (fun o => decide (t < o))
  let place := if c.forward then x.place else (c.beyondGap.map (fun a => a.place)).getD x.place
  match before, c.goal with
  | some _, .space _ _ _ _ _ => failSearch before s
  | some o, _ =>
    if adjacent && decide (o ≤ t) && passed && !(c.last.any (fun l => c.goal.fromStart && l.header.holds t)) then foundData c (marker x.dsn o place) s else failSearch before s
  | none, _ => failSearch none s

/-- The collection for a scan has ended: its header is taken, or, where it proved unrecoverable with no header to trust, the data set is
lost (R5, R97). -/
def helpEnded (s : State) : State :=
  match s.rch.scan, s.rch.duty, s.rch.collectFor with
  | some c, .idle, .scanHelp =>
    let tail := s.dbf.readRing.getLast?
    let drop := match tail with | some d => freeReadSlot d.dsn s | none => s
    let back := { drop with rch.duty := .scan, rch.collectFor := .forward }
    match tail, c.expects with
    | some d, some x =>
      if d.consistent = false ∨ d.unrecoverable = some .formatError then helpLost c x back
      else scanAgain (newHeader c ⟨headerOf d, d.startPlace.getD (here s)⟩ back)
    | none, some x => helpLost c x back
    | _, none => failSearch none back
  | _, _, _ => s

/-! ## The Rebuild pass (R15 to R17) -/

/-- A Rebuild pass begins (R15): the read side is dropped, and the tape moves to the start of wrap 0. -/
def beginRebuild (s : State) : State :=
  let s := dropReadSide true s
  startStream .rebuilding botPlace (some (scanStep s))
    { s with
      rch.duty := .scan
      rch.rebuild := some { wasValid := s.fmc.directoryValid, step := scanStep s }
      dlp.run.phase := .rebuilding }

/-- The Tape Directory of the data sets accepted, oldest first (R12, R16). -/
def directoryOf : List Accepted → Nat → List DirEntry → List DirEntry
  | [], _, dir => dir
  | a :: rest, marks, dir => directoryOf rest (marks + a.filemarks) (directoryCommit a.wrap a.dsn a.firstObject marks a.unended dir)

/-- The pass ends well (R16): the working table and EOD position replace Format Control's. `place` is the frame place after the
last accepted data set. -/
def endRebuild (r : Rebuild) (place : Place) (s : State) : State :=
  let oldest := r.accepted.reverse
  let eod : EodPos := match r.accepted with
    | a :: _ => ⟨place.wrap, place.lpos, some a.dsn, a.objectAfter, a.unended⟩
    | [] => EodPos.empty
  latch .directoryRebuilt (setEarlyWarning { s with
    fmc.directory := directoryOf oldest 0 []
    fmc.eod := eod
    fmc.filemarks := (oldest.map (fun a => a.filemarks)).sum
    fmc.directoryValid := true
    wch.eodCurrent := r.foundEod
    rch.rebuild := none
    rch.duty := .idle
    rch.expected := none
    rch.nextDsn := none
    rch.resume := none })

/-- The pass fails, or is ended: the working table is discarded; Directory Valid is as the pass found it (R17). -/
def dropRebuild (s : State) : State :=
  { s with rch.rebuild := none, rch.duty := if s.rch.duty = .scan then .idle else s.rch.duty }

/-- An unrecoverable expected header fails the pass (R17). -/
def failRebuild (s : State) : State :=
  let s := stopTape (dropRebuild s)
  endHead (readFailureBlock (some .unreadable) none s) (passOverHead s)

/-- A header accepted (R16). -/
def acceptHeader (h : Header) (p : Place) (r : Rebuild) : Rebuild :=
  { r with
    expectedDsn := r.expectedDsn + 1
    expectedObject := h.after
    accepted := ⟨h.dsn, p.wrap, h.firstObject, h.after, countFilemarks h.entries, lastUnended h.entries, p, p⟩ :: r.accepted }

/-- The data ends after the last accepted data set, with no valid EOD frame found: that data set is read in full (R16). -/
def rebuildTail (r : Rebuild) (s : State) : State :=
  match r.accepted with
  | [] => endRebuild r EodPos.empty.place (stopTape s)
  | a :: _ =>
    let s := { s with rch.rebuild := some r, rch.expected := none, rch.next := none }
    let s := beginCollection a.dsn .rebuildTail s
    { s with rch.resume := some a.place }

/-- A frame of the data set last accepted, met on its wrap, moves the place of its last frame (R16, R63). -/
def lengthenAccepted (dsn : Nat) (p : Place) (r : Rebuild) : Rebuild :=
  match r.accepted with
  | a :: rest =>
    if a.dsn = dsn ∧ a.wrap = p.wrap then { r with accepted := { a with lastFrame := furtherPlace (some a.lastFrame) p } :: rest } else r
  | [] => r

/-- A header of the expected DSN, consistent and with the expected first object, is accepted; any other ends the data (R16). -/
def acceptOrEnd (h : Header) (p : Place) (r : Rebuild) (s : State) : State :=
  if h.dsn = r.expectedDsn ∧ h.consistent = true ∧ h.firstObject = r.expectedObject then
    { s with rch.rebuild := some (acceptHeader h p r) }
  else rebuildTail r s

/-- A readable header in the pass (R16). The one last accepted is passed over on its own wrap, and on a later wrap its data set moves
there. Each header read returns the Servo Lost Count to 0, but one that is read again (R119). -/
def rebuildHeader (h : Header) (p : Place) (r : Rebuild) (s : State) : State :=
  let s := { s with moc.servoLost := if r.lastRead = some p then s.moc.servoLost else 0 }
  let r := { r with lastRead := some p }
  match r.accepted with
  | a :: rest =>
    if h.dsn = a.dsn then
      { s with rch.rebuild := some (
          if a.wrap < p.wrap then { r with accepted := { a with wrap := p.wrap, place := p, lastFrame := p } :: rest }
          else lengthenAccepted h.dsn p r) }
    else acceptOrEnd h p r s
  | [] => acceptOrEnd h p r s

/-- A frame of the expected DSN met with no readable header: its data set is collected, with the ladder (R17). -/
def rebuildSeek (r : Rebuild) (s : State) : State :=
  let p := match r.accepted with | a :: _ => a.place | [] => botPlace
  let s := { s with rch.expected := none, rch.next := none }
  let s := beginCollection r.expectedDsn .rebuildHeader s
  { s with rch.resume := some p }

/-- The tape streams for a Rebuild pass. -/
def rebuildingNow (s : State) : Bool :=
  s.moc.motion == .streaming && s.moc.operation.isNone && s.moc.work == .rebuilding && s.rch.duty == .scan && s.rch.rebuild.isSome

/-- A blank place in the pass (R16). -/
def rebuildBlank (r : Rebuild) (s : State) : State :=
  let start := if r.blanks = 0 then remaining (here s) else r.blankStart
  let r := { r with blanks := r.blanks + frameLen, blankStart := start, unread := 0, unreadFrom := none }
  let s := { s with rch.rebuild := some r }
  if dataSetRoom ≤ r.blanks ∧ dataSetRoom ≤ start then rebuildTail r s else s

/-- The place of the first copy of a valid EOD frame: the frame met, or the first of up to three frames directly before it that cannot be
read, which are copies of it by R77 (R16; assumption log 25). -/
def eodFirstPlace (r : Rebuild) (p : Place) : Place := if r.unread ≤ 3 then r.unreadFrom.getD p else p

/-- Less than 73.8 mm of the writable region remain after the frame met at the place under the head: the pass turns around to the next
wrap (R16). DEDUCED: a frame that cannot be read is none of those R16 takes, and does not make the pass turn (assumption log 25). -/
def leavesTail (x : Found) (s : State) : Bool :=
  match x with
  | .readable _ => decide (remaining (here s) < dataSetRoom + frameLen)
  | _ => false

/-- A frame place in a Rebuild pass (R16, R17): the frame is taken, and the pass turns around where less than 73.8 mm remain after it, or
the writable region ends; on the last wrap that end is the pass's own. -/
def rebuildFrameStep (lpos : Nat) (x : Found) (s : State) : State :=
  if rebuildingNow s = false then s
  else match s.rch.rebuild with
  | none => s
  | some r =>
    let s := { s with moc.lpos := some lpos }
    let r0 := { r with blanks := 0, unread := 0, unreadFrom := none }
    let clear := { s with rch.rebuild := some r0 }
    let s := match x with
      | .readable (.header _ h) => rebuildHeader h (here s) r0 clear
      | .readable (.payload _ dsn _ _) =>
        if dsn = r.expectedDsn then rebuildSeek r0 clear
        else { clear with rch.rebuild := some (lengthenAccepted dsn (here s) r0) }
      | .readable (.abandon _ _) => clear
      | .readable (.eod _ named _) =>
        if eodValid named (r.accepted.head?.map (fun a => a.dsn)) then
          endRebuild { r0 with foundEod := true } (eodFirstPlace r (here s)) (stopTape clear)
        else clear
      | .unreadable =>
        { s with rch.rebuild := some { r0 with unread := r.unread + 1, unreadFrom := some (r.unreadFrom.getD (here s)) } }
      | .blank => rebuildBlank r s
    let w := (here s).wrap
    if rebuildingNow s = false then s
    else if w < lastWrap s then
      if leavesTail x s = true ∨ scanAtEnd true (here s) = true then
        turnTo .rebuilding (wrapStart (w + 1)) (s.rch.rebuild.map (fun r' => r'.step)) s
      else s
    else if scanAtEnd true (here s) then (match s.rch.rebuild with | some r' => rebuildTail r' s | none => s)
    else s

/-- The last accepted data set proved unrecoverable: the one before it becomes the last (R16). -/
def dropAccepted (r : Rebuild) : Rebuild :=
  match r.accepted with
  | _ :: rest =>
    { r with
      accepted := rest
      expectedDsn := r.expectedDsn - 1
      expectedObject := match rest with | a :: _ => a.objectAfter | [] => 0 }
  | [] => r

/-- The data set collected for its header: an unrecoverable one fails the pass, a Format Error ends the data, and any other has its
header taken, and the pass goes on from there at its step (R16, R17). -/
def rebuildCollected (r : Rebuild) (d : Slot) (s : State) : State :=
  match d.unrecoverable with
  | some .unreadable => failRebuild s
  | some _ => rebuildTail r s
  | none =>
    let p := d.startPlace.getD (here s)
    let s := rebuildHeader (headerOf d) p r s
    if s.rch.duty = .scan then startStream .rebuilding p (some r.step) s else s

/-- A collection made for the pass has ended (R16, R17). -/
def rebuildHelpEnded (s : State) : State :=
  match s.rch.rebuild, s.rch.duty, s.rch.collectFor with
  | some r, .idle, .rebuildHeader =>
    (match s.dbf.readRing.getLast? with
     | some d => rebuildCollected r d { freeReadSlot d.dsn s with rch.duty := .scan, rch.collectFor := .forward }
     | none => rebuildTail r { s with rch.collectFor := .forward })
  | some r, .idle, .rebuildTail =>
    (match s.dbf.readRing.getLast? with
     | some d =>
       let s := { freeReadSlot d.dsn s with rch.collectFor := .forward }
       if d.unrecoverable.isSome then rebuildTail (dropAccepted r) s
       else
         let last := match r.accepted with
           | a :: _ => furtherPlace d.endPlace a.lastFrame
           | [] => d.endPlace.getD (here s)
         endRebuild r last.next (stopTape s)
     | none => rebuildTail (dropAccepted r) { s with rch.collectFor := .forward })
  | _, _, _ => s

end Sys2Proof.Machine
end

