-- ==== Sys2Proof/Machine/Handler.lean ====
section
/-! DEFINITION. The Cartridge Handler (R130 to R145, R157 to R164): seating and negotiation, the Thread Stack, thread completion, the
unthread with its write-back, the eject and the cleaning pass. -/

namespace Sys2Proof.Machine

/-! ## Seating and negotiation (R131, R133, R14) -/

/-- The effective policies and Auto-Thread are refreshed from the working copies (R150). -/
def refreshEffective (s : State) : State :=
  { s with
    cah.libraryPolicy := s.pst.libraryPolicy
    cah.linkPolicy := s.pst.linkPolicy
    cah.autoThread := s.pst.autoThread }

/-- A cartridge is drawn in: SEATED, and the first read attempt of its Cartridge Memory begins (R131). -/
def seat (c : Cartridge) (s : State) : State :=
  refreshEffective (latch .cartridgeSeated { s with
    cah.state := .seated
    cah.cartridge := some c
    cah.sensedType := some c.notch
    cah.writeProtected := c.writeProtected
    cah.cmReadable := false
    cah.image := none
    cah.cmReadAttempt := some 1 })

/-- The Cartridge Memory of a blank cartridge (R14): an empty Tape Directory, and an EOD position that names no DSN. -/
def blankMemory (i : CmImage) : Bool := i.directory.isEmpty && i.eod.lastDsn.isNone

/-- Format Control takes the directory at seat: the copy, or for a blank cartridge the empty values of R13 (R14). -/
def takeDirectory (s : State) : State :=
  match s.cah.image with
  | some i =>
    if i.sessionOpen then latch .directoryInvalid (forgetDirectory s)
    else if blankMemory i then { forgetDirectory s with fmc.directoryValid := true }
    else { s with fmc.directory := i.directory, fmc.eod := i.eod, fmc.filemarks := i.filemarks, fmc.directoryValid := true }
  | none => latch .directoryInvalid (forgetDirectory s)

/-- The Negotiated mode of a data cartridge (R133). -/
def negotiatedMode (image : Option CmImage) (writeProtected : Bool) : Mode :=
  match image with
  | none => .readOnly .cmUnreadable
  | some i =>
    if i.level = 4 then (if writeProtected then .readOnly .writeProtected else .readWrite)
    else if i.level = 3 then .readOnly .level3
    else .incompatible

/-- The format cap (R133). -/
def formatCapOf : Mode → Nat
  | .readOnly .level3 => 4
  | _ => 6

/-- The servo acquisition begins (R118): up to step 1, the run until four successive marks have been read, and the stop. A tape that
still moves after a failed attempt comes to rest first (R135). -/
def beginAcquire (s : State) : State :=
  enterPhase
    ⟨.acquiring, none,
      (if s.moc.motion.moving then [.ramp (some 0)] else []) ++ [.ramp (some 1), .markRun, .ramp (some 0)], false⟩
    { s with moc.marks := 0, moc.towardHigh := true }

/-- A stage begins to be pushed (R135). Acquire runs the tape at step 1 (R118). -/
def beginPush (st : Stage) (attempt : Nat) (s : State) : State :=
  let s := { s with cah.stageWork := some { stage := st, push := true, attempt := attempt } }
  if st = .acquire then beginAcquire s else s

/-- The stage above the stack's top begins (R135). -/
def pushNext (s : State) : State :=
  match stageOrder.drop s.cah.stack.length with
  | st :: _ => beginPush st 1 s
  | [] => s

/-- A thread is taken (R136). -/
def beginThread (who : Orderer) (s : State) : State :=
  pushNext { s with cah.state := .threading, cah.mediaOp := some { kind := .thread, orderer := who }, cah.unwind := none }

/-- A cleaning pass begins (R159). -/
def beginCleaning (uses : Nat) (s : State) : State :=
  { s with
    cah.state := .cleaning
    cah.cleaningStep := some .decrement
    cah.usesBefore := uses
    cah.sect := 50 - uses
    cah.runLength := 0
    cah.aborted := false
    cah.image := s.cah.image.map (fun i => { i with remainingUses := uses - 1 }) }

/-- What a cartridge in NEGOTIATED goes on to when the drive condition is READY: the cleaning pass of a cleaning cartridge, or
the thread of Auto-Thread (R131, R133, R159). -/
def startNegotiated (s : State) : State :=
  if s.cah.state ≠ .negotiated ∨ s.frg.condition ≠ .ready then s
  else match s.cah.image with
  | some i =>
    if i.cartType = .cleaning then beginCleaning i.remainingUses s
    else if s.cah.autoThread then beginThread .library s else s
  | none => if s.cah.autoThread then beginThread .library s else s

/-- The drive condition becomes READY: Drive Ready is latched, a level event of R158 that waits is latched, and a waiting
cartridge goes on (R183). -/
def driveReady (s : State) : State :=
  let s := latch .driveReady { s with frg.condition := .ready, frg.wasReady := true, frg.resetWork := none }
  let s := if s.frg.levelEventDue then
      latchAll ((levelEvent s.hcm.level).toList) { s with frg.levelEventDue := false } else s
  startNegotiated s

/-- A recovery ends when the cartridge is HELD: the drive is READY (R183, R184). -/
def endRecovery (s : State) : State :=
  if s.cah.recovering then driveReady { s with cah.recovering := false, cah.state := .held } else s

/-- Medium negotiation (R133). A recovered cartridge is negotiated as at seat and ends HELD, a cleaning cartridge without a pass (R184).
DESIGN CHOICE: a recovered cleaning cartridge with no use left latches Cleaning Expired, as R159 has it at seat; R184 names no event
(assumption log 48). -/
def negotiate (s : State) : State :=
  let kind := match s.cah.image with
    | some i => i.cartType
    | none => s.cah.sensedType.getD .data
  match kind with
  | .cleaning =>
    let s := setFormatCap 6 { s with cah.mode := none, cah.negotiated := none }
    match s.cah.image with
    | none => endRecovery (latch .cleaningIncomplete { s with cah.state := .held })
    | some i =>
      if i.remainingUses = 0 then endRecovery (latch .cleaningExpired { s with cah.state := .held })
      else if s.cah.recovering then endRecovery s
      else startNegotiated { s with cah.state := .negotiated }
  | .data =>
    let m := negotiatedMode s.cah.image s.cah.writeProtected
    let s := takeDirectory { s with cah.mode := some m, cah.negotiated := some m }
    let s := setFormatCap (formatCapOf m) s
    let s := if m = .incompatible then latch .incompatibleMedium { s with cah.state := .held }
      else { s with cah.state := .negotiated }
    if s.cah.recovering then endRecovery s else startNegotiated s

/-- A read attempt of the Cartridge Memory ends (R131). -/
def cmReadEnds (ok : Bool) (s : State) : State :=
  match s.cah.cmReadAttempt with
  | none => s
  | some n =>
    if ok then
      negotiate { s with
        cah.cmReadAttempt := none
        cah.cmReadable := true
        cah.image := s.cah.cartridge.map (fun c => c.memory) }
    else if n < 3 then { s with cah.cmReadAttempt := some (n + 1) }
    else
      negotiate (reportFault .cmReader .cmRead
        { s with cah.cmReadAttempt := none, cah.cmReadable := false, cah.image := none })

/-! ## Answers to the media commands at the head -/

/-- The Thread at the head, if it is in hand, ends. -/
def endThread (r : Reply) (s : State) : State :=
  match headEntry s, s.dlp.run.phase with
  | some ⟨_, .thread⟩, .threading => finishHead r s
  | _, _ => s

/-- The Unthread at the head, or the Eject that is making its Unthread, ends with an outcome; ABORTED where an Abort of the
Eject is in hand (R172). -/
def endUnthread (o : Reply) (s : State) : State :=
  let r := if s.dlp.run.aborting then { outcome := .aborted } else o
  match headEntry s, s.dlp.run.phase with
  | some ⟨_, .unthread _⟩, .unthreading => finishHead r s
  | some ⟨_, .eject⟩, .unthreading => finishHead r s
  | _, _ => s

/-- The outcome of an unthread that reaches HELD (R142). -/
def unthreadOutcome (s : State) : OutcomeBlock :=
  if s.cah.writeBackFailed then .sense (sense .notedCmWriteFailed) else .good

/-- FAILED EQUIPMENT/Threader, Retry Allowed no (R139). -/
def threaderReply : Reply := { outcome := .sense { sense .threader with unit := some .threader, retry := false } }

/-! ## Eject (R145) -/

/-- The push to the mouth begins. -/
def beginEject (s : State) : State := { s with cah.state := .ejecting, cah.pushing := true }

/-! ## Custody (R146 to R149) -/

/-- The holder changes (R146): the event is latched, and a grant to the Library Port stops the grace timer; one to a Data Link
that is down starts it (R148, R149). -/
def passCustody (p : Port) (s : State) : State :=
  if s.cah.holder = p then s
  else latch .custodyChanged { s with
    cah.holder := p
    cah.grace := if p = .link then (if s.dlp.link = .up then none else some 0) else none }

/-- A pending question is settled (R148): a waiting Data Link request is answered, and a grant passes custody. -/
def settleQuestion (granted : Bool) (s : State) : State :=
  match s.cah.question with
  | none => s
  | some q =>
    let s := { s with cah.question := none, lbp.questionFlag := false }
    let s := if granted then passCustody q.requester s else s
    match q.tag with
    | some t => dropTag t (reply t (if granted then goodReply else senseReply .custodyRefused) s)
    | none => s

/-! ## The Thread Stack (R135 to R139) -/

/-- The top stage begins to be popped (R135). -/
def beginPop (s : State) : State :=
  match s.cah.stack.getLast? with
  | some st => { s with cah.stageWork := some { stage := st, push := false } }
  | none => s

/-- The eject completes (R145). -/
def ejectDone (s : State) : State :=
  let s := forgetDirectory (setFormatCap 6 { s with
    cah.state := .empty
    cah.pushing := false
    cah.cartridge := none
    cah.sensedType := none
    cah.writeProtected := false
    cah.cmReadable := false
    cah.image := none
    cah.mode := none
    cah.negotiated := none
    cah.mediaOp := none })
  let s := settleQuestion false s
  let s := { passCustody .library s with cah.grace := none }
  let s := latch .cartridgeEjected s
  match headEntry s, s.dlp.run.phase with
  | some ⟨_, .eject⟩, .ejecting => finishHead goodReply s
  | _, _ => s

/-- Custody after a recovery, and at the seat of a cartridge found at Power-On, is the Library Port's (R146, R184). DESIGN CHOICE: a question that the library has pending then is settled
as granted, as at a Release, and one of the host's stays (assumption log 48). -/
def recoverCustody (s : State) : State :=
  match s.cah.question with
  | some q => if q.requester = .library then settleQuestion true s else passCustody .library s
  | none => passCustody .library s

/-- The stack has been emptied: what follows depends on why it was popped (R138, R142, R157, R162, R163, R184). -/
def stackEmptied (s : State) : State :=
  let u := s.cah.unwind
  let op := s.cah.mediaOp
  let s := { s with cah.stageWork := none, cah.unwind := none, cah.state := .held, cah.mediaOp := none }
  match u with
  | some (.threadFailed st) =>
    let s := { s with cah.cleaningStep := none, cah.aborted := false }
    endUnthread goodReply
      (endThread { outcome := .sense { sense .threadFailed with detail := some (.stage st), retry := true } } s)
  | some .threadAborted => endUnthread goodReply (endThread { outcome := .aborted } s)
  | some .unthread =>
    let s := storeRetained (latch .unthreadComplete s)
    (match op with
     | some o =>
       if o.kind = .eject then beginEject { s with cah.mediaOp := some o, dlp.run.phase := match headEntry s, s.dlp.run.phase with
         | some ⟨_, .eject⟩, .unthreading => .ejecting
         | _, ph => ph }
       else endUnthread ⟨unthreadOutcome s, .none⟩ s
     | none => endUnthread ⟨unthreadOutcome s, .none⟩ s)
  | some .cleaningDone | some .cleaningAborted =>
    if s.cah.aborted then
      storeRetained (latch .cleaningIncomplete { s with cah.cleaningStep := none, cah.aborted := false })
    else
      latch .cleaningDone (storeRetained (setConditionCap 6 { s with
        cah.cleaningStep := none
        hcm.hci := 0
        hcm.level := .normal
        hcm.motionSeconds := 0
        hcm.cleaningCall := false }))
  | some .recovery =>
    let s := storeRetained (latch .unthreadComplete s)
    { recoverCustody s with cah.state := .seated, cah.cmReadAttempt := some 1, cah.recovering := true }
  | some .stuck => s
  | none => s

/-- The stack is popped in reverse for a reason (R138). A tape that an Acquire attempt has moved comes to rest first, before its first
pop. -/
def unwindStack (u : Unwind) (s : State) : State :=
  let s := { s with cah.unwind := some u, cah.stageWork := none }
  if s.cah.stack.isEmpty then stackEmptied s
  else if s.moc.operation.isSome then s
  else beginPop s

/-- The tape has come to rest, and pops that waited for it begin (R138). -/
def popAtRest (s : State) : State :=
  if s.cah.unwind.isSome ∧ s.cah.stageWork = none ∧ s.moc.operation = none then beginPop s else s

/-- A running Acquire attempt is undone: the tape stops (R114, R135). -/
def stopAcquire (s : State) : State := if acquireStage s then stopTape s else s

/-- A thread is aborted (R138): its stage is undone and the stack is popped. Pops that are due already, and that a Motion Fault has kept
from beginning, begin. -/
def abortThread (s : State) : State :=
  match s.cah.unwind with
  | some u => if s.cah.stageWork.isNone then unwindStack u s else s
  | none => unwindStack .threadAborted (stopAcquire s)

/-- The thread-completion values of every block, and the events and answers that follow (R137 and the tables it names). -/
def threadComplete (s : State) : State :=
  let image := s.cah.image.map (fun i => { i with loadCount := min 16777215 (i.loadCount + 1) })
  let ratio := match image.bind (fun i => i.lastRatio) with
    | some r => if 256 ≤ r ∧ r ≤ 8192 then r else 512
    | none => 512
  let s := { s with
    cah.state := .threaded
    cah.stageWork := none
    cah.mediaOp := none
    cah.unwind := none
    cah.mode := s.cah.negotiated
    cah.image := image
    cah.sessionOpenMarked := false
    cah.sessionOpenWrite := none
    cah.writeBackFailed := false
    fmc.accepted := 0
    fmc.committed := 0
    fmc.discarded := 0
    fmc.position := 0
    fmc.nextDsn := match s.fmc.eod.lastDsn with | some d => d + 1 | none => 0
    fmc.nextObject := s.fmc.eod.nextObject
    cpe.faults := 0
    cpe.sessionDisable := false
    dbf.writeRing := []
    dbf.readRing := []
    dbf.direction := .neutral
    dbf.readAheadActive := false
    dbf.starvedTime := 0
    dbf.readSideDrops := 0
    dbf.flush := false
    dlp.heldTime := 0
    dlp.linkBytes := 0
    wch := { eodCurrent := true, nextPlace := s.fmc.eod.place }
    rch := { expected := some 0, nextDsn := some 0, resume := some botPlace }
    moc := { s.moc with
      motion := .stopped
      step := 0
      wrap := some 0
      operation := none
      waiting := none
      restsFor := some botPlace
      towardHigh := true
      servoLost := 0
      restTimer := 0
      backhitches := 0
      turnarounds := 0
      speedChanges := 0
      servoLosts := 0 }
    sgv := { crs := ratio, target := min (capOf s) 3, mark := s.timeBase } }
  endThread goodReply (latch .threadComplete (refreshEffective (setEarlyWarning s)))

/-- The cleaning run begins (R161): a seek along wrap 0 to the section, and the run at step 1. -/
def beginCleaningRun (s : State) : State :=
  startStream .cleaningRun ⟨0, 1000000 + s.cah.sect * 1500000⟩ (some 1)
    { s with cah.cleaningStep := some .run, moc.servoLost := 0 }

/-- A recovered tape is run at step 1 to BOT on the tracks of wrap 0, toward low LPOS (R184). -/
def beginRecoveryRewind (s : State) : State :=
  enterPhase ⟨.recoveryRewind, some botPlace, [.ramp (some 1), .slowRun], false⟩
    { s with moc.wrap := some 0, moc.towardHigh := false }

/-- The acquisition is made: four successive marks have been read, and the tape stands STOPPED (R118, R135). -/
def acquired (s : State) : Bool := s.moc.motion == .stopped && s.moc.operation.isNone && decide (4 ≤ s.moc.marks)

/-- A stage senses success (R135, R137, R161, R184): Acquire only once the acquisition is made; then the head of a thread stands at
BOT. -/
def stagePushed (s : State) : State :=
  match s.cah.stageWork with
  | none => s
  | some w =>
    if w.push = false ∨ (w.stage = .acquire ∧ acquired s = false) then s
    else
      let s := { s with cah.stack := s.cah.stack ++ [w.stage], cah.stageWork := none }
      let s := if w.stage = .tension then comeToRest s else s
      let s := if w.stage = .acquire ∧ s.cah.recovering = false then atBot s else s
      if s.cah.stack.length < 6 then pushNext s
      else if s.cah.recovering then beginRecoveryRewind s
      else if s.cah.cleaningStep = some .thread then beginCleaningRun s
      else threadComplete s

/-- A stage attempt runs out of time (R135, R138, R161). In the recovery of a threaded tape the attempts are not those of a
thread, and TENSION_TIMEOUT ends the tensioning (R184). -/
def stageTimedOut (s : State) : State :=
  match s.cah.stageWork with
  | none => s
  | some w =>
    if w.push = false ∨ s.cah.recovering then s
    else if w.attempt < stageAttempts w.stage then beginPush w.stage (w.attempt + 1) s
    else
      let s := latch .threadFailed s
      let s := if s.cah.cleaningStep = some .thread then latch .cleaningIncomplete s else s
      unwindStack (.threadFailed w.stage) (stopAcquire s)

/-- A pop succeeds (R135). The pop of Tension leaves the Motion Controller RELAXED. -/
def stagePopped (s : State) : State :=
  match s.cah.stageWork with
  | none => s
  | some w =>
    if w.push then s
    else
      let s := { s with cah.stack := s.cah.stack.dropLast, cah.stageWork := none }
      let s := if w.stage = .tension then
          { s with moc.motion := .relaxed, moc.step := 0, moc.operation := none, moc.waiting := none, moc.restsFor := none }
        else s
      if s.cah.stack.isEmpty then stackEmptied s else beginPop s

/-- The cartridge cannot be returned: STUCK, with the fault that freezes the drive; a Thread, an Unthread or an Eject in hand is
answered FAILED EQUIPMENT/Threader (R139, R145), and a cleaning pass is incomplete (R162, R163), unless its failed thread has said so
already (R161). -/
def becomeStuck (c : FaultCause) (s : State) : State :=
  let told : Bool := match s.cah.unwind with | some (.threadFailed _) => true | _ => false
  let cleaning := s.cah.cleaningStep.isSome && !told
  let s := reportFault .threader c { s with
    cah.state := .stuck
    cah.stageWork := none
    cah.unwind := none
    cah.mediaOp := none
    cah.pushing := false
    cah.cleaningStep := none
    cah.aborted := false }
  let s := if cleaning then latch .cleaningIncomplete s else s
  match headEntry s, s.dlp.run.phase with
  | some _, .threading | some _, .unthreading | some _, .ejecting => finishHead threaderReply s
  | _, _ => s

/-- A pop fails (R139). -/
def stagePopFailed (s : State) : State :=
  match s.cah.stageWork with
  | some w => if w.push then s else becomeStuck .popFailed s
  | none => s

/-! ## The unthread (R142 to R144) -/

/-- The unthread's work once the write side is dealt with: UNTHREADING, the read side dropped without counting, the seek to BOT
(R142 steps 2 and 3). -/
def beginUnthread (s : State) : State :=
  startSeek .unthreadRewind botPlace (dropReadSide false
    { s with cah.state := .unthreading, cah.writeBackFailed := false, rch.scan := none, rch.rebuild := none })

/-- The image as the write-back gathers it (R143). -/
def gatherImage (s : State) (i : CmImage) : CmImage :=
  let entry : SessionEntry :=
    ⟨Config.driveSerial, s.wch.dataSetsCommitted, s.wch.rewriteFrames, s.rch.recovered, s.rch.unrecovered⟩
  let i := { i with
    lastRatio := some s.sgv.crs
    history := (i.history ++ [entry]).drop (i.history.length + 1 - 4) }
  if s.fmc.directoryValid then
    { i with directory := s.fmc.directory, eod := s.fmc.eod, filemarks := s.fmc.filemarks, sessionOpen := false }
  else i

/-- The pops of an unthread begin (R142 step 5). -/
def popUnthread (s : State) : State := unwindStack .unthread s

/-- The write-back begins when the tape stands at BOT: not with CM Readable clear, and after a Session Open write in hand
(R140, R143). -/
def beginWriteBack (s : State) : State :=
  if s.cah.cmReadable = false then popUnthread s
  else if s.cah.sessionOpenWrite.isSome then { s with cah.writeBackWaits := true }
  else { s with cah.writeBack := true, cah.writeBackWaits := false, cah.image := s.cah.image.map (gatherImage s) }

/-- The Cartridge Memory takes the image. -/
def writeMemory (s : State) : State :=
  { s with cah.cartridge := match s.cah.cartridge, s.cah.image with
    | some c, some i => some { c with memory := i }
    | c, _ => c }

/-- The write-back ends (R143). -/
def writeBackEnds (ok : Bool) (s : State) : State :=
  if s.cah.writeBack = false then s
  else
    let s := { s with cah.writeBack := false }
    let s := if ok then writeMemory s
      else reportFault .cmReader .cmWrite (latch .cmWriteFailed { s with cah.writeBackFailed := true })
    popUnthread s

/-- The data set now being written (R140): the oldest WRITING one with frames still to come, or the newest. -/
def dataSetBeingWritten (s : State) : Option Nat :=
  let w := s.dbf.writeRing.filter (fun d => d.state == .writing)
  match w.find? (fun d => d.nextIndex < 33) with
  | some d => some d.dsn
  | none => w.getLast?.map (fun d => d.dsn)

/-- A write attempt of Session Open ends (R140). -/
def sessionOpenEnds (ok : Bool) (s : State) : State :=
  match s.cah.sessionOpenWrite with
  | none => s
  | some n =>
    let s' :=
      if ok then
        { s with
          cah.sessionOpenWrite := none
          cah.sessionOpenMarked := true
          cah.cartridge := s.cah.cartridge.map (fun c => { c with memory := { c.memory with sessionOpen := true } }) }
      else if n < 3 then { s with cah.sessionOpenWrite := some (n + 1) }
      else
        let s := reportFault .cmReader .cmWrite (latch .cmWriteFailed { s with cah.sessionOpenWrite := none })
        permanentFailure .sessionOpen (dataSetBeingWritten s) false s
    if s'.cah.sessionOpenWrite.isNone ∧ s'.cah.writeBackWaits then beginWriteBack s' else s'

/-- An Abort, a Link Reset or a Drive Reset before the write-back: the rewind stops and the state returns to THREADED (R144). -/
def abortRewind (s : State) : State :=
  stopTape { s with cah.state := .threaded, cah.mediaOp := none, cah.writeBackWaits := false }

/-- The write-back of the unthread in progress has begun, or is past (R144). -/
def pastWriteBack (s : State) : Bool :=
  s.cah.writeBack || s.cah.unwind.isSome

/-! ## The cleaning pass (R159 to R163) -/

/-- The Remaining Uses write ends (R160). DESIGN CHOICE: three failed attempts leave what the Cartridge Memory itself holds at Uses Before,
so that a Power-On reads that number again; R160 says that the drive cannot tell how far the failed write reached (assumption
log 48). DESIGN CHOICE: the fault's entry gives the cartridge state HELD, which the failure brings about; R160 and R187 do not say
whether its moment is still CLEANING (assumption log 62). -/
def decrementEnds (ok : Bool) (s : State) : State :=
  if s.cah.cleaningStep ≠ some .decrement then s
  else if ok then
    let s := writeMemory s
    if s.cah.aborted then
      latch .cleaningIncomplete { s with cah.state := .held, cah.cleaningStep := none, cah.aborted := false }
    else pushNext { s with cah.cleaningStep := some .thread }
  else
    latch .cleaningIncomplete (reportFault .cmReader .cmWrite
      { s with cah.state := .held, cah.cleaningStep := none, cah.aborted := false })

/-- The tape of a cleaning pass is rewound (R162). -/
def cleaningRewind (s : State) : State :=
  startSeek .cleaningRewind botPlace (stopTape { s with cah.cleaningStep := some .unthread })

/-- The run ends (R161). -/
def cleaningRunEnds (s : State) : State :=
  if s.cah.cleaningStep = some .run ∧ s.moc.motion = .streaming ∧ s.moc.operation = none ∧ s.moc.work = .cleaningRun then
    cleaningRewind { s with cah.runLength := 15000 }
  else s

/-- An arrival that aborts the pass (R163); `joins` says that it is a Library Unthread, which joins the unthread in hand. A thread that
has failed its last attempt unwinds all the same (R161). DESIGN CHOICE: a Drive Reset that meets the step UNTHREAD while the tape still
seeks to BOT lets that seek go on, as R163 has the pops go on, where R112 and R129 would end it and begin another (assumption
log 48). -/
def abortCleaning (joins : Bool) (s : State) : State :=
  match s.cah.cleaningStep with
  | some .decrement => { s with cah.aborted := true }
  | some .thread =>
    if s.cah.unwind.isSome then s
    else unwindStack .cleaningAborted (stopAcquire { s with cah.aborted := true })
  | some .run => cleaningRewind { s with cah.aborted := true }
  | some .unthread => if joins then s else { s with cah.aborted := true }
  | none => s

end Sys2Proof.Machine
end

