-- ==== Sys2Proof/Machine/MotionEvents.lean ====
section
/-! DEFINITION. The events of the Motion Controller (R108 to R121, R128): ends of phases, servo marks and their loss, Motion Faults, and
what the drive does when the tape streams or has come to rest. The freeze on BUFFER MEMORY stands here too (R188). -/

namespace Sys2Proof.Machine

/-! ## Faults (R121, R188) -/

/-- A medium command is running at the head: it has begun, and does not merely wait on the Library Port's operation (R136). -/
def headRunning (s : State) : Bool :=
  match s.dlp.run.phase with
  | .notBegun => false
  | .waitMedia => false
  | _ => !s.dlp.queue.isEmpty

/-- The blocks that depend on motion, or on the buffer memory, at a freeze: the writer IDLE, the read side dropped, searches and
passes ended, no flush in hand (R62, R96, R121, R188). -/
def freezeBlocks (s : State) : State :=
  let s := endFlush (writerFault s)
  let s := dropReadSide true { s with rch.scan := none, rch.rebuild := none }
  { s with rch.duty := .idle }

/-- The running medium command ends with an equipment outcome. DESIGN CHOICE: the sense record's information is the Position, for BUFFER
MEMORY too, of which R188 names none (assumption log 57). -/
def endRunning (r : Reason) (u : FaultUnit) (s : State) : State :=
  if headRunning s then
    let s := dropUnplaced (headTag s) (dropLinkOperation s)
    endHead (.sense { senseAtPosition r s with unit := some u, retry := false }) s
  else s

/-- A Motion Fault (R121). A cleaning pass is aborted by it (R163). -/
def motionFault (u : FaultUnit) (c : FaultCause) (s : State) : State :=
  let s := reportFault u c (haltTape s)
  let s := { s with cah.aborted := if s.cah.cleaningStep.isSome then true else s.cah.aborted, cah.stageWork := none }
  let s := dropWaitingOperation (freezeBlocks s)
  endRunning .motionFault u s

/-- A slot's payload check fails (R187, R188): BUFFER MEMORY freezes the drive. DESIGN CHOICE: an Unthread or an Eject of the Library Port
that waits on its flush stays in hand until the Drive Reset, where a Motion Fault drops it; R188 does not name it (assumption log 57). -/
def bufferFault (c : FaultCause) (s : State) : State :=
  let s := reportFault .bufferMemory c s
  let s := stopTape (freezeBlocks s)
  endRunning .driveFaulted .bufferMemory s

/-! ## What follows a motion (R62, R104, R113 to R117, R129) -/

/-- A Rewind ends at BOT (R104). -/
def rewindDone (s : State) : State :=
  let s := atBot { s with
    fmc.position := 0
    rch.expected := some 0
    rch.nextDsn := some 0
    rch.resume := some botPlace }
  match headEntry s, s.dlp.run.phase with
  | some ⟨_, .rewind _⟩, .moving => endHead .good s
  | _, _ => s

/-- The tape of a Drive Reset goes on: from HALTED a reacquisition, then the EOD frame that R77 calls for, then the seek to BOT
(R85, R129). -/
def resetMotion (s : State) : State :=
  if s.moc.motion = .halted then
    enterPhase ⟨.resetReacquire, none, [.ramp (some 1), .markRun, .ramp (some 0)], true⟩
      { s with moc.servoLost := 1, frg.resetWork := some .rewind }
  else if s.cah.state = .threaded ∧ s.cah.cleaningStep = none ∧ eodWanted s = true ∧ s.wch.writer ≠ .ending then
    planEod .discard { s with frg.resetWork := some .eodFirst }
  else if s.wch.eodPlan.isSome then { s with frg.resetWork := some .eodFirst }
  else startSeek .resetRewind botPlace { s with frg.resetWork := some .rewind }

/-- The seek to BOT of a Drive Reset has ended: the tape stands STOPPED, threaded, with the Position 0; Trail List and Void Tags
are empty (R22, R85, R107, R129). A cleaning pass goes on to its pops (R163). -/
def resetRewound (s : State) : State :=
  let s := atBot { s with
    fmc.position := 0
    rch.expected := some 0
    rch.nextDsn := some 0
    rch.resume := some botPlace
    rch.trail := []
    wch.voidTags := [] }
  if s.cah.state = .cleaning then unwindStack .cleaningDone { s with cah.cleaningStep := some .unthread, frg.resetWork := some .handler }
  else if s.frg.resetWork.isSome then driveReady s
  else s

/-- The tape streams for a work (R62, R113). -/
def streamingFor (w : Work) (aim : Option Place) (s : State) : State :=
  match w with
  | .writing =>
    if s.wch.writer = .starting ∧ aim = some s.wch.nextPlace then { s with wch.writer := .writing }
    else if s.wch.writer = .starting then s
    else stopTape s
  | .collecting => if s.rch.duty = .collect ∨ s.rch.duty = .recover then s else stopTape s
  | .scanning => if s.rch.duty = .scan ∧ s.rch.scan.isSome then s else stopTape s
  | .rebuilding => if s.rch.duty = .scan ∧ s.rch.rebuild.isSome then s else stopTape s
  | .cleaningRun => if s.cah.cleaningStep = some .run then s else stopTape s
  | _ => stopTape s

/-- The tape has come to rest after a work. -/
def restedAfter (w : Work) (s : State) : State :=
  match w with
  | .rewinding => rewindDone s
  | .toEod => arriveFound s
  | .found => arriveFound s
  | .unthreadRewind =>
    if s.cah.state = .unthreading ∧ pastWriteBack s = false ∧ s.cah.writeBackWaits = false then beginWriteBack (atBot s) else s
  | .recoveryRewind => if s.cah.recovering then unwindStack .recovery (atBot s) else s
  | .cleaningRewind =>
    if s.cah.cleaningStep = some .unthread ∧ s.cah.unwind = none then unwindStack .cleaningDone (atBot s) else s
  | .resetReacquire => if s.frg.resetWork.isSome then resetMotion s else s
  | .acquiring => if s.cah.recovering = true ∧ s.cah.stack.length = 6 then beginRecoveryRewind s else s
  | .resetRewind => resetRewound s
  | _ => s

/-- What follows the end of a phase. Where an operation ends and a Waiting request stands, that begins (R112). -/
def afterMotion (aim : Option Place) (r : State × MotionEnd) : State :=
  match r.2 with
  | .none => r.1
  | .streaming w => if r.1.moc.waiting.isSome then beginWaiting r.1 else streamingFor w aim r.1
  | .rested w => beginWaiting (popAtRest (restedAfter w r.1))

/-- The place at which the operation in progress aims. -/
def aimOf (s : State) : Option Place := s.moc.operation.bind (fun op => op.aim)

/-- The running phase ends, and what follows comes about; a tape that has come to step 0 passes none of the frames listed any more. -/
def phaseEnds (s : State) : State :=
  afterMotion (aimOf s) (advance (if s.moc.step = 0 then strandTrail s else s))

/-- The direction of the operation in progress on a wrap. -/
def operationDirection (wrap : Nat) (s : State) : Bool :=
  match s.moc.operation with
  | some op => workDirection op.work wrap s
  | none => s.moc.towardHigh

/-! ## The events -/

/-- A ramp ends (R110). In a seek the ramp up ends in SEEKING (R116), and the end of its ramp down is the end of the seek. -/
def rampEnds (lpos : Nat) (s : State) : State :=
  match runningPhase s with
  | some (.ramp (some k)) => phaseEnds { s with moc.step := k, moc.lpos := knownLpos lpos s }
  | some .seek =>
    if s.moc.motion = .ramping ∧ s.moc.step ≠ 7 then
      settleSeek { s with
        moc.motion := .seeking
        moc.step := 7
        moc.lpos := knownLpos lpos s
        moc.drift := 0
        moc.watch := 0 }
    else s
  | _ => s

/-- A backhitch ends at the run-up point of its aim (R115); that of a reacquisition is aimed at none (R120). -/
def backhitchEnds (lpos : Nat) (s : State) : State :=
  match runningPhase s with
  | some .backhitch =>
    phaseEnds { s with
      moc.step := 0
      moc.lpos := knownLpos lpos s
      moc.restsFor := if s.moc.operation.any Operation.reruns then none else aimOf s
      moc.towardHigh := operationDirection (s.moc.wrap.getD 0) s }
  | _ => s

/-- The tape rests at the run-up point of the operation's aim (R116, R117). -/
def arriveAtAim (lpos : Nat) (s : State) : State :=
  phaseEnds { s with
    moc.step := 0
    moc.lpos := knownLpos lpos s
    moc.wrap := (aimOf s).map (fun p => p.wrap)
    moc.restsFor := aimOf s
    moc.towardHigh := operationDirection (((aimOf s).map (fun p => p.wrap)).getD 0) s }

/-- A seek that has come to speed, or the run to BOT of a recovery, ends at rest (R116, R184; assumption log 22). -/
def seekEnds (lpos : Nat) (s : State) : State :=
  if seekAtSpeed s = true ∨ runningPhase s = some .slowRun then arriveAtAim lpos s else s

/-- A turnaround ends at the run-up point on the new wrap (R117). -/
def turnaroundEnds (lpos : Nat) (s : State) : State :=
  if runningPhase s = some .turnaround then arriveAtAim lpos s else s

/-- The re-tension ends: STOPPED, and the request is carried out (R109). -/
def retensionEnds (s : State) : State :=
  match runningPhase s with
  | some .retension => phaseEnds { s with moc.motion := .stopped, moc.step := 0 }
  | _ => s

/-- The rest timer reaches 600 s in STOPPED (R109). -/
def restExpires (s : State) : State :=
  if s.moc.motion = .stopped ∧ s.moc.operation = none then { s with moc.motion := .resting } else s

/-- Tension does not come up: in a re-tension, or in the recovery of a threaded tape (R109, R184). -/
def tensionFails (s : State) : State :=
  let recovery : Bool := s.cah.recovering && (match s.cah.stageWork with | some w => w.stage == .tension && w.push | none => false)
  if runningPhase s = some .retension ∨ recovery = true then motionFault .reelDrive .noTension s else s

/-- A timed operation overruns its limit (R121). -/
def operationOverruns (s : State) : State := if timedOperation s then motionFault .reelDrive .overrun s else s

/-- A servo mark is read (R118, R119): the position is set, but an LPOS that is unknown stays so until the acquisition has been made.
The fourth successive mark of an acquisition ends it (R118, R120). -/
def markRead (wrap lpos : Nat) (s : State) : State :=
  if marksPass s = false then s
  else
    let s := { s with
      moc.wrap := some wrap
      moc.lpos := knownLpos lpos s
      moc.drift := 0
      moc.watch := 0
      moc.marks := if runningPhase s = some .markRun then s.moc.marks + 1 else s.moc.marks
      cah.runLength := if s.cah.cleaningStep = some .run ∧ s.moc.operation = none ∧ s.moc.work = .cleaningRun
        then min 15000 ((lpos - (1000000 + s.cah.sect * 1500000)) / 100) else s.cah.runLength }
    if runningPhase s = some .markRun ∧ 4 ≤ s.moc.marks then phaseEnds { s with moc.lpos := some lpos } else settleSeek s

/-- The first Servo Lost of a data set unit (R120): a writer is set back to STARTING, the MISSING verdicts of R66 are given, and
the reacquisition begins. -/
def servoLostOnce (s : State) : State :=
  let s := { s with wch.writer := if s.wch.writer = .writing then .starting else s.wch.writer }
  let s := if s.wch.window.isEmpty ∧ s.wch.voidTags.isEmpty ∧ s.rch.trail.isEmpty then s else missingVerdicts s
  reacquire s

/-- Servo Lost where the watch is armed (R119 to R121): in an Acquire attempt of a thread it fails the attempt (R135); the first one in
a data set unit is met as R120 gives, that of a recovery's acquisition too, and a second one is a Motion Fault. -/
def servoIsLost (s : State) : State :=
  if servoArmed s = false then s
  else if threadAcquires s then stageTimedOut s
  else if s.moc.servoLost = 0 then servoLostOnce s
  else motionFault .servo .servoLost s

/-- A whole second of motion is handed on (R108, R154). -/
def secondOfMotion (s : State) : State :=
  if s.moc.motion.moving ∨ 1000000 ≤ s.moc.motionTime then handSecond s else s

end Sys2Proof.Machine
end

