-- ==== Sys2Proof/Machine/Commands.lean ====
section
/-! DEFINITION. The medium commands at the head of the Medium Queue: their tests (R79, R82, R83, R99, R136, R141, R145, R188), the append
point (R15, R18, R19, R48), the work of each (R58, R60, R80 to R83, R100 to R104, R136, R142, R145), and their Aborts (R172). -/

namespace Sys2Proof.Machine

/-! ## Answers -/

/-- The command at the head is answered with a reason alone. -/
def refuseHead (r : Reason) (s : State) : State := endHead (.sense (sense r)) s

/-- The command at the head is answered with the reported failure, which Report Pending then no longer holds (R76). -/
def answerReport (r : Report) (s : State) : State :=
  endHead (.sense (reportSense r (0 < r.held))) { s with wch.report := none }

/-- FAILED END-OF-MEDIUM with a count of records not on tape (R73). -/
def endOfMediumBlock (n : Nat) : OutcomeBlock := .sense { sense .endOfMedium with count := some n }

/-- REFUSED STATE/Unwritten Data with the records held (R141). -/
def unwrittenBlock (s : State) : OutcomeBlock := .sense { sense .unwrittenData with info := some (held s) }

/-- A write-side slot remains while the medium mode is WRITE-SUSPENDED (R49). -/
def suspendedSlots (s : State) : Bool := s.cah.mode == some .writeSuspended && !s.dbf.writeRing.isEmpty

/-- The drive and cartridge tests with which the tables of R79 and R99 begin, as an answer. -/
def driveTest (s : State) : Option OutcomeBlock :=
  if s.frg.condition = .faulted then some (faultedBlock s)
  else if s.cah.state = .cleaning then some (.sense (sense .cleaningRuns))
  else if s.cah.state ≠ .threaded then some (.sense (sense .notThreaded))
  else none

/-- The tests of R79 from End of Medium Stop to Write Suspended. -/
def suspendTest (s : State) : Option OutcomeBlock :=
  if s.wch.endOfMediumStop then some (endOfMediumBlock (held s))
  else if s.cah.mode = some .writeSuspended then some (.sense (sense .stWriteSuspended))
  else none

/-- The tests of R79 against protection. -/
def protectTest (s : State) : Option OutcomeBlock :=
  match s.cah.mode with
  | some (.readOnly .writeProtected) => some (.sense (sense .writeProtected))
  | some (.readOnly _) => some (.sense (sense .readOnlyMedium))
  | _ => none

/-- The tests of R79 and R82 on the command's fields. -/
def writeFieldTest : MedCmd → Option OutcomeBlock
  | .writeRecords _ ls =>
    if badRecordCount ls then some (.sense (sense .badCount))
    else match firstBadLength ls with
    | some n => some (.sense { sense .badLength with info := some n })
    | none => none
  | .writeFilemarks _ n => if 256 < n then some (.sense (sense .badCount)) else none
  | _ => none

/-- The append case of R19 applies at the Position. -/
def appendsAtEod (s : State) : Bool := s.fmc.position == s.fmc.eod.nextObject && !s.fmc.eod.unended

/-- The append place lies on the last wrap where R9's test refuses a data set (R73, R79). -/
def appendRefused (s : State) : Bool :=
  writeSideEmpty s && s.fmc.position != 0 && s.fmc.directoryValid && appendsAtEod s && decide (lastWrap s ≤ s.fmc.eod.wrap)
    && decide (remaining s.fmc.eod.place < dataSetRoom)

/-- The last test of R79. -/
def appendTest (s : State) : Option OutcomeBlock := if appendRefused s then some (endOfMediumBlock 0) else none

/-- The tests of R79 and R82 after the one on Report Pending, in order. -/
def writeTest (c : MedCmd) (s : State) : Option OutcomeBlock :=
  suspendTest s <|> protectTest s <|> writeFieldTest c <|> appendTest s

/-- The ranges of R99. -/
def readFieldTest : MedCmd → Option Reason
  | .readRecords l n => if n = 0 ∨ 256 < n then some .badCount else if badLength l then some .badLength else none
  | .space k d n _ => if 16777215 < n then some .badCount else if k = .eod ∧ d = .backward then some .badDirection else none
  | .locate t _ => if maxObject < t then some .badObject else none
  | _ => none

/-- The tests of R99 after the one on Report Pending, in order. -/
def readTest (c : MedCmd) (s : State) : Option OutcomeBlock :=
  if s.wch.endOfMediumStop then some (endOfMediumBlock (held s))
  else if suspendedSlots s then some (.sense { sense .stWriteSuspended with retry := true })
  else (readFieldTest c).map (fun r => .sense (sense r))

/-- A command is tested: by the drive and the cartridge, by Report Pending, and by what its own table goes on with; a command
that passes is taken (R79, R99). -/
def tested (own : Option OutcomeBlock) (taken : State → State) (s : State) : State :=
  match driveTest s with
  | some o => endHead o s
  | none =>
    match s.wch.report with
    | some r => answerReport r s
    | none =>
      match own with
      | some o => endHead o s
      | none => taken s

/-! ## The append point (R15, R18, R19, R48, R80) -/

/-- The tape streams for a read-side work that has ended: it stops (R114). -/
def settleMotion (s : State) : State :=
  if s.moc.motion = .streaming ∧ s.moc.operation = none then
    match s.moc.work with
    | .collecting => if s.rch.duty = .collect ∨ s.rch.duty = .recover then s else stopTape s
    | .scanning | .rebuilding => if s.rch.duty = .scan ∨ s.rch.duty = .collect ∨ s.rch.duty = .recover then s else stopTape s
    | _ => s
  else s

/-- The filemarks that the Write Filemarks at the head has to place join what waits (R32, R82). -/
def queueFilemarks (s : State) : State :=
  match s.dlp.queue with
  | ⟨tag, .writeFilemarks _ n⟩ :: _ =>
    { s with cpe.intake := s.cpe.intake ++ List.replicate n (.filemark tag), dlp.run.phase := .placing }
  | _ => { s with dlp.run.phase := .receiving }

/-- The append point is set: the read side is dropped, the direction becomes WRITE, records received whole become Accepted, and
the command goes on (R47, R48, R80). -/
def appendSet (s : State) : State :=
  let s := settleMotion (dropReadSide true (endSearch s))
  queueFilemarks (acceptWaiting { s with dbf.direction := .write })

/-- The slots of the read side whose data can be used. -/
def usable (d : Slot) : Bool := (d.state == .ready || d.state == .draining) && d.unrecoverable.isNone

/-- A slot's first entry begins object `n` (R19). -/
def Slot.opens (n : Nat) (d : Slot) : Bool := (headerOf d).opens n

/-- The read-side slot that holds the entry beginning object `n`: before all others one whose first entry begins it, whatever void part
of it ends the data set before (R5, R19). -/
def slotHolding (n : Nat) (s : State) : Option Slot :=
  s.dbf.readRing.find? (fun d => usable d && d.opens n)
    <|> s.dbf.readRing.find? (fun d => usable d && holdsObject n (d.firstObject.getD 0) d.entries)

/-- The read side shows that data set `d` is the one object `n` lies in (R19): a last part that alone begins `n` is not void, because the
next data set goes on with it. -/
def knownHolder (n : Nat) (d : Slot) (s : State) : Bool :=
  !mayBeVoid n (headerOf d) s
    || s.dbf.readRing.any (fun x => x.dsn == d.dsn + 1 && x.firstObject == some n && x.consistent && !(headerOf x).firstBegins)

/-- The Tape Directory entry whose data sets hold DSN `d`. -/
def entryOfDsn (d : Nat) (dir : List DirEntry) : Option DirEntry := dir.find? (fun e => e.firstDsn ≤ d && d ≤ e.lastDsn)

/-- The Filemark entries of the data sets `from_` to `d - 1` where the read side holds them all (R19). -/
def ringMarks (d : Nat) : Nat → Nat → List Slot → Option Nat
  | 0, _, _ => some 0
  | k + 1, from_, ring =>
    if d ≤ from_ then some 0
    else match ring.find? (fun x => x.dsn == from_ && usable x) with
    | some x => (ringMarks d k (from_ + 1) ring).map (countFilemarks x.entries + ·)
    | none => none

/-- The filemarks below data set `d`, from the directory and the read side, where these hold them (R19). -/
def knownMarks (d : Nat) (s : State) : Option Nat :=
  match entryOfDsn d s.fmc.directory with
  | some e => (ringMarks d (s.dbf.readRing.length + 1) e.firstDsn s.dbf.readRing).map (e.filemarksBefore + ·)
  | none => none

/-- An overwrite (R19): the entries of `d` that belong to objects below `n` go to the carry store, the map is truncated, and the
append point stands. With no such entry, it is an overwrite at a boundary. The data set before `d`, now the last one, ends with an
unended part where that is known of it (`before`), and where the first entry of `d` goes on with a record (assumption log 6). -/
def overwriteAt (d first marks n : Nat) (before : Bool) (entries : List Entry) (payload : List PSym) (place : Place) (s : State) :
    State :=
  let kept := entriesBelow n first entries
  let unended := before || (match entries with | e :: _ => !e.beginsObject | [] => false)
  appendSet (truncateMap d first marks n unended place { s with
    cpe.carryEntries := kept
    cpe.carryPayload := payload.take (sumStored kept)
    cpe.carryFirst := first })

/-- The data set before `d` ends with an unended part: its slot in the read side shows it, or the Tape Directory where it is the last of
its wrap (R5, R19). -/
def unendedBefore (d : Nat) (s : State) : Bool :=
  s.dbf.readRing.any (fun x => usable x && x.dsn + 1 == d && lastUnended x.entries) || wrapEndsUnended d s

/-- The overwrite cases of R19: from the read-side slot that holds the data set, where that is known to be the one and the filemark count
is known, and otherwise by a header scan. With no slot that holds it, the read side is of no use to the command, and makes room for the data set that
is to be read again (R46). -/
def setOverwrite (n : Nat) (s : State) : State :=
  match slotHolding n s with
  | some d =>
    (match knownMarks d.dsn s, d.startPlace with
     | some m, some p =>
       if knownHolder n d s then overwriteAt d.dsn (d.firstObject.getD 0) m n (unendedBefore d.dsn s) d.entries d.payload p s
       else beginSearch (.append n 0) none { dropReading s with dlp.run.phase := .appendScan }
     | _, _ => beginSearch (.append n 0) none { dropReading s with dlp.run.phase := .appendScan })
  | none => beginSearch (.append n 0) none { dropReadSide true s with dlp.run.phase := .appendScan }

/-- The append point at the Position, with Directory Valid set or the Position 0 (R18, R19, R73). -/
def setAppendPoint (s : State) : State :=
  if s.fmc.position = 0 then appendSet (overwriteFromBot s)
  else if appendRefused s then endHead (endOfMediumBlock 0) (passOverHead s)
  else if appendsAtEod s then appendSet (appendAtEod s)
  else setOverwrite s.fmc.position s

/-- The filemarks counted by the scan that found the data set of an append point, below that data set (R19). -/
def scannedMarks (c : Scan) (h : SeenHeader) (s : State) : Nat :=
  let below := match c.goal with | .append _ m => m | _ => 0
  match entryOfDsn h.header.dsn s.fmc.directory with
  | some e => e.filemarksBefore + below
  | none => below

/-- A failure of the re-read ends the command with no truncation made (R19, R80). -/
def failReread (d : Slot) (s : State) : State :=
  let s := settleMotion (dropReading (endSearch (freeReadSlot d.dsn s)))
  endHead (readFailureBlock d.unrecoverable (some d.dsn) s) (passOverHead s)

/-- The data set found for an append point is taken: at a boundary, from the slot that holds it, or after it is read again; a
collection that met no frame of it has failed (R19). -/
def takeReread (s : State) : State :=
  match s.rch.scan with
  | none => s
  | some c =>
    match c.last with
    | none => s
    | some h =>
      let n := s.fmc.position
      let marks := scannedMarks c h s
      if h.header.opens n then
        overwriteAt h.header.dsn n marks n c.unendedBefore [] [] h.place s
      else match readSlot h.header.dsn s with
      | some d =>
        if d.state = .reading then s
        else if usable d then
          overwriteAt d.dsn h.header.firstObject marks n c.unendedBefore d.entries d.payload (d.startPlace.getD h.place) s
        else failReread d s
      | none =>
        if s.rch.duty ≠ .idle then s
        else if s.rch.collectFor = .reread then
          failReread { state := .ready, dsn := h.header.dsn, unrecoverable := some .unreadable } s
        else
          let s := if s.dbf.readRing.isEmpty then s else dropReadSide true s
          let s := beginCollection h.header.dsn .reread { s with rch.expected := some h.header.firstObject, rch.next := none }
          { s with rch.resume := some h.place }

/-! ## Write commands (R79, R80, R82) -/

/-- The append point is set, after the Rebuild pass where Directory Valid is clear (R15, R80). -/
def beginAppend (s : State) : State :=
  if s.fmc.directoryValid = false ∧ s.fmc.position ≠ 0 then beginRebuild s else setAppendPoint s

/-- The append point is the end of data, or is refused there: it needs neither the tape nor another place for the writer (R19, R73). -/
def appendsAtOnce (s : State) : Bool :=
  s.fmc.position != 0 && s.fmc.directoryValid && (appendRefused s || appendsAtEod s)

/-- A Write Records or Write Filemarks is taken (R80, R82): with the write side empty it sets the append point, and otherwise
it continues the write side. Another append point than the end of data waits while the writer has its EOD frame in hand (R112). -/
def takeWrite (s : State) : State :=
  if writeSideEmpty s = false then queueFilemarks { s with dbf.direction := .write }
  else if writerBusy s = true ∧ appendsAtOnce s = false then setPhase .waitTape s
  else beginAppend s

/-! ## The buffer's own service of Locate and Space (R58, R59) -/

/-- The slots that can be walked from the drain pointer: those READY or DRAINING whose header is known (R58, R59). -/
def walkable (s : State) : List Slot :=
  s.dbf.readRing.takeWhile (fun d => (d.state == .ready || d.state == .draining) && d.firstObject.isSome)

/-- The objects of the walkable slots in order: the object that goes on into the oldest slot, and those that begin (R58). -/
def ringObjects (ring : List Slot) : List (Nat × Bool) :=
  let begun := (ring.map (fun d => begunObjects (d.firstObject.getD 0) d.entries)).flatten
  match ring with
  | d :: _ =>
    (match d.entries with
     | e :: _ => if e.beginsObject then begun else (d.firstObject.getD 0, false) :: begun
     | [] => begun)
  | [] => begun

/-- The slot of a stopping point, one without Unrecoverable set: the one that holds the entry beginning it, or, for the end of the data,
the last slot where that is the last data set (R58). -/
def stopSlot (q : Nat) (s : State) : Option Slot :=
  let ring := walkable s
  match ring.find? (fun d => d.unrecoverable.isNone && holdsObject q (d.firstObject.getD 0) d.entries) with
  | some d => some d
  | none =>
    if s.fmc.directoryValid = true ∧ s.fmc.eod.nextObject = q then
      ring.getLast?.filter (fun d => d.unrecoverable.isNone && some d.dsn == s.fmc.eod.lastDsn)
    else none

/-- The drain pointer is set to a stopping point (R58): older slots are freed and hand no figures, and the slot becomes
DRAINING, or is decoded again up to the pointer (R25, R41). -/
def servePoint (q : Nat) (d : Slot) (s : State) : State :=
  let s := if (drainingSlot s).any (fun x => decide (x.dsn < d.dsn)) then stopUnpacking s else s
  let s := { s with dbf.readRing := s.dbf.readRing.filter (fun x => d.dsn ≤ x.dsn), fmc.position := q }
  if d.state = .ready then startDraining d.dsn s else syncWindow s

/-- The stopping point, outcome and residue of a Space that stays within the walkable slots, its slot still to be found (R58,
R102). -/
def ringWalk (kind : SpaceKind) (dir : Dir) (n : Nat) (s : State) : Option (Nat × Option Reason × Nat) :=
  let p := s.fmc.position
  let all := ringObjects (walkable s)
  let objs := if s.fmc.directoryValid then all.filter (fun x => x.1 < s.fmc.eod.nextObject) else all
  if all.isEmpty then none
  else match kind with
  | .eod => if s.fmc.directoryValid then some (s.fmc.eod.nextObject, none, 0) else none
  | _ =>
    match (match dir with
      | .forward => walkForward kind objs n p
      | .backward => walkBackward kind objs.reverse n p) with
    | .done q => some (q, none, 0)
    | .filemark q residue => some (q, some .filemark, residue)
    | .more left q =>
      match dir with
      | .forward => if s.fmc.directoryValid = true ∧ s.fmc.eod.nextObject ≤ q then some (q, some .endOfData, left) else none
      | .backward => if q = 0 then some (0, some .beginning, left) else none

/-- The Position lies among the objects of the walkable slots, or at their end. -/
def pointerInRing (s : State) : Bool :=
  let ring := walkable s
  match ring.head?, ring.getLast? with
  | some a, some b => decide (a.firstObject.getD 0 ≤ s.fmc.position) && decide (s.fmc.position ≤ b.objectAfter.getD 0)
  | _, _ => false

/-! ## Read-type commands (R99 to R104) -/

/-- A read-type command is taken (R49): with data on the write side it demands a flush and waits, and otherwise it proceeds. -/
def takeRead (own : State → State) (s : State) : State :=
  if writeSideEmpty s = false then setPhase .waitFlush (demandFlush s) else own (settleDirection s)

/-- With Immediate a command is answered once it is taken and the write side is empty (R105). -/
def answerIfImmediate (immediate : Bool) (s : State) : State := if immediate then answerEarly s else s

/-- The work of a Read Records (R56, R100). -/
def readWork (s : State) : State :=
  { s with dbf.readAheadActive := true, dlp.run.phase := .reading, dlp.run.startPosition := s.fmc.position }

/-- A Read Records, or read-ahead by itself, whose data set is not known to follow has the data set that holds the Position's object
sought (R56, R98, R100). -/
def seekForRead (s : State) : State :=
  if (readExecuting s = true ∨ aheadWants s = true) ∧ s.dlp.run.aborting = false ∧ readerFree s = true
      ∧ s.dbf.readRing.isEmpty = true ∧ s.rch.nextDsn = none ∧ s.rch.duty = .idle ∧ atEndOfData s.fmc.position s = false then
    beginSearch .position none s
  else s

/-- The search of a Locate not served from the buffer, with Directory Valid set (R103). -/
def locateOnTape (t : Nat) (s : State) : State :=
  let known := knownPlace t s
  let s := dropReadSide true { s with dbf.readAheadActive := false, dlp.run.phase := .searching }
  if t < s.fmc.eod.nextObject then beginSearch (.object t) known s
  else seekEod { goal := .object t } s

/-- The work of a Locate (R58, R103), its Rebuild pass apart. -/
def locateWork (t : Nat) (s : State) : State :=
  let s := { s with dlp.run.startPosition := s.fmc.position }
  match (if t < s.fmc.eod.nextObject then stopSlot t s else none) with
  | some d => endHead .good (servePoint t d s)
  | none => locateOnTape t s

/-- The search of a Space not served from the buffer (R102). -/
def spaceOnTape (kind : SpaceKind) (dir : Dir) (n : Nat) (s : State) : State :=
  let p := s.fmc.position
  let e := s.fmc.eod.nextObject
  let known := knownPlace p s
  let s := dropReadSide true { s with dlp.run.phase := .searching }
  if s.fmc.directoryValid = false then beginSearch (.space kind dir n p false) known s
  else match kind, dir with
  | .eod, _ => seekEod { goal := .settled e none 0 } s
  | _, .forward =>
    if e ≤ p then seekEod { goal := .settled e (some .endOfData) n } s
    else match entryFor p s.fmc.directory with
    | some x =>
      if x.object = p then
        spaceOnward kind .forward n p (s.fmc.directory.filter (fun y => p ≤ y.object)) { goal := .space kind .forward n p true } s
      else beginSearch (.space kind .forward n p false) known s
    | none => failSearch none s
  | _, .backward =>
    if e ≤ p then
      spaceOnward kind .backward n p s.fmc.directory.reverse { goal := .space kind .backward n p true } s
    else beginSearch (.space kind .backward n p false) known s

/-- The work of a Space (R58, R102), its Rebuild pass apart: a count of 0 and a backward Space at object 0 have nothing to pass. -/
def spaceWork (kind : SpaceKind) (dir : Dir) (n : Nat) (s : State) : State :=
  let s := { s with dlp.run.startPosition := s.fmc.position }
  if n = 0 then endHead .good s
  else if kind ≠ .eod ∧ dir = .backward ∧ s.fmc.position = 0 then endHead (spaceOutcome (some .beginning) n) s
  else match (if pointerInRing s then ringWalk kind dir n s else none) with
  | some (q, r, residue) =>
    (match stopSlot q s with
     | some d => endHead (spaceOutcome r residue) (servePoint q d s)
     | none => spaceOnTape kind dir n s)
  | none => spaceOnTape kind dir n s

/-- The tape stands at BOT at rest. -/
def standsAtBot (s : State) : Bool :=
  (s.moc.motion == .stopped || s.moc.motion == .resting) && s.moc.operation.isNone && s.moc.restsFor == some botPlace

/-- The work of a Rewind (R104). -/
def rewindWork (s : State) : State :=
  let s := { s with dlp.run.startPosition := s.fmc.position }
  if standsAtBot s = true ∧ s.dbf.readRing.isEmpty = true then
    endHead .good { dropPositionSearch s with
      fmc.position := 0
      dbf.readAheadActive := false
      rch.expected := some 0
      rch.nextDsn := some 0
      rch.resume := some botPlace }
  else startSeek .rewinding botPlace (dropReadSide true { s with dlp.run.phase := .moving })

/-- The work of a read-type command, a Read Records apart, once the tape is its own (R15, R100 to R104). -/
def tapeWork (c : MedCmd) (s : State) : State :=
  match c with
  | .space kind dir n _ =>
    if kind = .eod ∧ n ≠ 0 ∧ s.fmc.directoryValid = false then beginRebuild s else spaceWork kind dir n s
  | .locate t _ => if s.fmc.directoryValid then locateWork t s else beginRebuild s
  | .rewind _ => rewindWork s
  | .rebuildDirectory => beginRebuild s
  | _ => s

/-- A read-type command has more to do than to answer (R102). -/
def needsTape (c : MedCmd) (s : State) : Bool :=
  match c with
  | .space kind dir n _ => n != 0 && !(kind != .eod && dir == .backward && s.fmc.position == 0)
  | _ => true

/-- The work waits while the writer still has its EOD frame in hand, for which it holds the tape (R112). -/
def whenTapeFree (c : MedCmd) (s : State) : State :=
  if needsTape c s = true ∧ writerBusy s = true then setPhase .waitTape s else tapeWork c s

/-- What follows the tests and the flush of a read-type command: with Immediate its answer first (R105), then its work (R15, R100 to
R104). -/
def readOwn (c : MedCmd) (s : State) : State :=
  match c with
  | .readRecords _ _ => readWork s
  | .space _ _ _ imm => whenTapeFree c (answerIfImmediate imm s)
  | .locate _ imm => whenTapeFree c (answerIfImmediate imm s)
  | .rewind imm => whenTapeFree c (answerIfImmediate imm s)
  | .rebuildDirectory => whenTapeFree c s
  | _ => s

/-- What a command does when the Rebuild pass that ran before its own work has ended (R15, R99). -/
def afterRebuild (c : MedCmd) (s : State) : State :=
  match c with
  | .writeRecords _ _ => setAppendPoint s
  | .writeFilemarks _ _ => setAppendPoint s
  | .locate t _ => locateWork t s
  | .space kind dir n _ => spaceWork kind dir n s
  | _ => endHead .good s

/-! ## Flush and Discard Buffer (R60, R83) -/

/-- Flush is taken (R83). -/
def takeFlush (s : State) : State :=
  if writeSideEmpty s then endHead (writeOutcome s) s else setPhase .waitStop (demandFlush s)

/-- The discard of the write side by Discard Buffer or Unthread with Force clears Report Pending (R76, R84). -/
def discardAndClear (s : State) : State := { discardWriteSide s with wch.report := none }

/-- Discard Buffer (R60): both sides are dropped, and the reply waits for the EOD frame that the discard calls for. A drop of the read
side alone leaves the Position. -/
def takeDiscard (s : State) : State :=
  let n := held s
  let s := discardAndClear s
  let s := if s.dbf.readRing.isEmpty then s else dropReadSide true s
  let s := { s with dlp.run.accepted := n }
  if writerBusy s then setPhase .waitFlush s else endHead .good s

/-! ## Thread, Unthread, Eject (R136, R141, R142, R145) -/

/-- The cartridge in the drive is a cleaning cartridge (R133). -/
def cleaningCartridge (s : State) : Bool :=
  match s.cah.image with
  | some i => i.cartType == .cleaning
  | none => s.cah.sensedType == some .cleaning

/-- A Data Link Thread (R136), the drive not FAULTED. -/
def takeThread (tag : Tag) (s : State) : State :=
  match s.cah.state with
  | .empty => refuseHead .noCartridge s
  | .seated => setPhase .waitMedia s
  | .cleaning => refuseHead .cleaningRuns s
  | .threaded => endHead .good s
  | .threading => setPhase .threading s
  | .unthreading => setPhase .waitMedia s
  | .ejecting => setPhase .waitMedia s
  | .stuck => finishHead threaderReply s
  | .negotiated | .held =>
    if cleaningCartridge s then refuseHead .cleaningCartridge s
    else if s.cah.mode = some .incompatible then refuseHead .incompatibleMedium s
    else beginThread (.link tag) (setPhase .threading s)

/-- The unthread of THREADED begins with the write side empty, or goes on after the wait for it (R142, R145). -/
def unthreadFromHead (kind : MediaKind) (tag : Tag) (force : Bool) (s : State) : State :=
  beginUnthread (setPhase .unthreading { s with cah.mediaOp := some { kind := kind, orderer := .link tag, force := force } })

/-- The unthread of THREADED begins where the writer has no EOD frame in hand any more (R112, R142). -/
def unthreadWhenFree (kind : MediaKind) (tag : Tag) (s : State) : State :=
  if writerBusy s then setPhase .waitTape s else unthreadFromHead kind tag false s

/-- An Unthread without Force in THREADED, for an Unthread or for an Eject (R141, R142). -/
def takeUnthread (kind : MediaKind) (tag : Tag) (s : State) : State :=
  match s.wch.report with
  | some r => answerReport r s
  | none =>
    if s.wch.endOfMediumStop then endHead (endOfMediumBlock (held s)) s
    else if suspendedSlots s then endHead (unwrittenBlock s) s
    else takeRead (unthreadWhenFree kind tag) s

/-- An Unthread with Force that does its work clears Report Pending (R76). -/
def clearIf (force : Bool) (s : State) : State := if force then { s with wch.report := none } else s

/-- A Data Link Unthread (R141), the drive not FAULTED. -/
def takeUnthreadCmd (tag : Tag) (force : Bool) (s : State) : State :=
  match s.cah.state with
  | .empty => refuseHead .noCartridge s
  | .cleaning => refuseHead .cleaningRuns s
  | .threading => abortThread (setPhase .unthreading (clearIf force s))
  | .seated => endHead .good (clearIf force s)
  | .negotiated => endHead .good (clearIf force s)
  | .held => endHead .good (clearIf force s)
  | .unthreading => setPhase .waitMedia s
  | .ejecting => setPhase .waitMedia s
  | .stuck => finishHead threaderReply s
  | .threaded =>
    if force then
      let s := discardAndClear s
      if writerBusy s then setPhase .waitFlush s else unthreadFromHead .unthread tag true s
    else takeUnthread .unthread tag s

/-- A Data Link Eject (R145), the drive not FAULTED. -/
def takeEject (tag : Tag) (s : State) : State :=
  if s.cah.holder ≠ .link then refuseHead .noCustody s
  else match s.cah.state with
  | .empty => refuseHead .noCartridge s
  | .cleaning => refuseHead .cleaningRuns s
  | .seated => setPhase .waitMedia s
  | .threading => setPhase .waitMedia s
  | .unthreading => setPhase .waitMedia s
  | .ejecting => setPhase .waitMedia s
  | .stuck => finishHead threaderReply s
  | .threaded => takeUnthread .eject tag s
  | .negotiated | .held =>
    beginEject (setPhase .ejecting { s with cah.mediaOp := some { kind := .eject, orderer := .link tag } })

/-- A command carries the reported failure before its own table is asked (R76), as Thread, Eject and an Unthread without Force
that meet it do. -/
def reportFirst (taken : State → State) (s : State) : State :=
  match s.wch.report with
  | some r => answerReport r s
  | none => taken s

/-! ## The head begins (R136, R171) -/

/-- A media operation of the Library Port holds the head back: but a Thread or an Unthread meets a thread in hand at once (R136).
DESIGN CHOICE: an Eject of a host without custody waits with the others, and is refused No Custody after the wait, although R144 and R145
refuse it whatever the cartridge state (assumption log 52). -/
def waitsForLibrary (c : MedCmd) (s : State) : Bool :=
  libraryOperation s && (match c with
    | .thread => s.cah.state != .threading
    | .unthread _ => s.cah.state != .threading
    | _ => true)

/-- The command at the head begins, or is tested again after a wait (R171). -/
def beginCommand (tag : Tag) (c : MedCmd) (s : State) : State :=
  if s.frg.condition = .faulted then endHead (faultedBlock s) s
  else if waitsForLibrary c s then setPhase .waitMedia s
  else match c with
  | .writeRecords _ ls => tested (writeTest c s) takeWrite { s with dlp.run.lengths := ls }
  | .writeFilemarks _ _ => tested (writeTest c s) takeWrite s
  | .flush => tested (suspendTest s) takeFlush s
  | .readRecords _ _ => tested (readTest c s) (takeRead (readOwn c)) s
  | .space _ _ _ _ => tested (readTest c s) (takeRead (readOwn c)) s
  | .locate _ _ => tested (readTest c s) (takeRead (readOwn c)) s
  | .rewind _ => tested (readTest c s) (takeRead (readOwn c)) s
  | .rebuildDirectory => tested (readTest c s) (takeRead (readOwn c)) s
  | .thread => reportFirst (takeThread tag) s
  | .unthread force => takeUnthreadCmd tag force s
  | .eject => reportFirst (takeEject tag) s
  | .discardBuffer => if s.cah.state = .cleaning then refuseHead .cleaningRuns s else takeDiscard s

/-- The head of the Medium Queue begins (R171). -/
def beginHead (s : State) : State :=
  match s.dlp.queue with
  | q :: _ => beginCommand q.tag q.cmd s
  | [] => s

/-! ## Abort (R172) -/

/-- The head ends ABORTED with its results as they stand. -/
def abortNow (s : State) : State := endHead .aborted s

/-- A Rebuild pass ends at an Abort (R17): the Position becomes the expected first object number. -/
def abortRebuild (s : State) : State :=
  let p := match s.rch.rebuild with | some r => r.expectedObject | none => s.fmc.position
  let s := dropReading (dropRebuild (stopForAbort s))
  abortNow (passOverHead { s with fmc.position := p })

/-- The search of a Locate or a Space ends at an Abort (R103), with the Position it has or that of the header at the boundary. -/
def abortSearch (p : Nat) (s : State) : State :=
  abortNow (dropReading (endSearch (stopForAbort { s with fmc.position := p })))

/-- A Rewind ends at an Abort (R104): the Position becomes 0, and the next read finds its place by a scan from BOT. -/
def abortRewindCmd (s : State) : State :=
  abortNow (stopTape { s with
    fmc.position := 0
    rch.expected := none
    rch.nextDsn := none
    rch.resume := none })

/-- A running Read Records ends at an Abort (R96, R101): its collection ends, the READY and DRAINING slots stay. -/
def abortRead (s : State) : State :=
  let moved := (readingSlot s).isSome ∨ s.rch.scan.isSome
  let s := if moved then dropReading (endSearch (stopForAbort s)) else s
  abortNow { s with dbf.readAheadActive := false, rch.resume := none }

/-- The search for an append point, or the re-read, ends at an Abort with no truncation made (R19). -/
def abortAppend (s : State) : State := abortNow (passOverHead (dropReading (endSearch (stopForAbort s))))

/-- The Write Filemarks at the head places no further filemark (R82). -/
def abortFilemarks (s : State) : State :=
  let t := headTag s
  abortNow { s with cpe.intake := s.cpe.intake.filter (fun x => x != .filemark t) }

/-- A command that waits for the tape ends at an Abort: nothing of its own work is done, and no record of it is Accepted (R80, R172). -/
def abortWait (s : State) : State := abortNow (if headWrites s then passOverHead s else s)

/-- A collection in pass 0, or a header scan, is in hand on the streaming tape, where an Abort waits for the next data set boundary (R96,
R112). -/
def readBetween (s : State) : Bool :=
  scanningNow s || (collectingNow s && s.rch.duty == .collect && (readingSlot s).isSome)

/-- The unthread at the head ends at an Abort (R138, R144, R172). -/
def abortUnthread (s : State) : State :=
  if s.cah.state = .unthreading ∧ pastWriteBack s = false then abortNow (abortRewind s)
  else match headEntry s, s.cah.mediaOp with
  | some ⟨_, .eject⟩, some op => { s with cah.mediaOp := some { op with kind := .unthread }, dlp.run.aborting := true }
  | _, _ => s

/-- The work of the command at the head runs on to its own outcome whatever an Abort says (R172). -/
def runsOn (s : State) : Bool :=
  match s.dlp.run.phase, s.dlp.queue with
  | .ejecting, _ => true
  | .waitFlush, ⟨_, .discardBuffer⟩ :: _ => true
  | .unthreading, ⟨_, .unthread _⟩ :: _ => s.cah.state != .unthreading || pastWriteBack s
  | .threading, _ => (match s.cah.unwind with | some (.threadFailed _) => true | _ => false)
  | _, _ => false

/-- The command at the head ends as its own chapter gives for an Abort (R172). -/
def abortHead (s : State) : State :=
  if s.dlp.run.aborting then s
  else if runsOn s then s
  else match s.dlp.run.phase with
  | .notBegun => abortNow s
  | .waitMedia => abortNow s
  | .waitFlush => abortNow (dropLinkOperation s)
  | .waitTape => abortWait s
  | .rebuilding => if rebuildingNow s = true ∨ readBetween s = true then { s with dlp.run.aborting := true } else abortRebuild s
  | .appendScan => if readBetween s then { s with dlp.run.aborting := true } else abortAppend s
  | .rereading => if readBetween s then { s with dlp.run.aborting := true } else abortAppend s
  | .receiving => abortNow (dropPartial (headTag s) s)
  | .waitCommit => abortNow s
  | .placing => abortFilemarks s
  | .waitSync => abortNow s
  | .waitStop => abortNow s
  | .reading =>
    if readBetween s then { s with dlp.run.aborting := true, dbf.readAheadActive := false } else abortRead s
  | .searching => if readBetween s then { s with dlp.run.aborting := true } else abortSearch s.dlp.run.startPosition s
  | .moving =>
    (match headEntry s with
     | some ⟨_, .rewind _⟩ => abortRewindCmd s
     | _ => abortSearch s.dlp.run.startPosition s)
  | .threading => abortThread { s with dlp.run.aborting := true }
  | .unthreading => abortUnthread s
  | .ejecting => s

/-- The command at the head ends at a Link Reset, as at an Abort with no reply; of a running Read Records the read-ahead and its
ladder go on (R61, R107, R168). -/
def linkAbortHead (s : State) : State :=
  let s := { s with dlp.run.mute := true }
  match s.dlp.run.phase with
  | .reading => abortNow (if s.rch.scan.isSome then stopTape (dropCollecting (endSearch s)) else s)
  | _ => abortHead s

/-- A Rebuild pass whose Abort waits for a data set boundary meets a frame place (R17): it goes on only while the place lies
within the data set last accepted. -/
def rebuildBoundary (lpos : Nat) (x : Found) (s : State) : State :=
  let s' := rebuildFrameStep lpos x s
  if s.dlp.run.aborting = true ∧ s.dlp.run.phase = .rebuilding then
    match s.rch.rebuild, s'.rch.rebuild with
    | some r, some r' => if r'.expectedDsn = r.expectedDsn ∧ s'.rch.duty = .scan then s' else abortRebuild { s with moc.lpos := some lpos }
    | _, _ => abortRebuild { s with moc.lpos := some lpos }
  else s'

/-- What an Abort that has waited for a data set boundary ends there (R17, R19, R96, R103, R112): a Rebuild pass, the search or the re-read
for an append point, a Read Records, or the search of a Locate or Space with the Position `p` that the boundary gives. -/
def abortScan (p : Nat) (s : State) : State :=
  match s.dlp.run.phase with
  | .rebuilding => abortRebuild s
  | .appendScan => abortAppend s
  | .rereading => abortAppend s
  | .reading => abortRead s
  | _ => abortSearch p s

/-- A search whose Abort waits for a data set boundary meets a frame place (R103): a header, or the end of the scan. -/
def scanBoundary (lpos : Nat) (x : Found) (s : State) : State :=
  if s.dlp.run.aborting = true ∧ scanningNow s = true then
    match x with
    | .readable (.header _ h) => abortScan h.firstObject { s with moc.lpos := some lpos }
    | _ =>
      let s' := scanFrame lpos x s
      if scanningNow s' then s' else abortScan s.dlp.run.startPosition { s with moc.lpos := some lpos }
  else scanFrame lpos x s

/-- The DSN of a frame of a data set. -/
def foundDsn : Found → Option Nat
  | .readable (.header _ h) => some h.dsn
  | .readable (.payload _ dsn _ _) => some dsn
  | _ => none

/-- The collection goes on with the same data set in pass 0. -/
def sameCollection (s s' : State) : Bool :=
  s'.rch.duty == .collect && s'.rch.current.map (fun c => c.dsn) == s.rch.current.map (fun c => c.dsn)

/-- The Position that a frame met at a data set boundary gives a Locate or a Space (R103): a header's first object, and otherwise the one it
was taken at. -/
def boundaryPosition (x : Found) (s : State) : Nat :=
  match x with
  | .readable (.header _ h) => h.firstObject
  | _ => s.dlp.run.startPosition

/-- A collection whose Abort waits for a data set boundary meets a frame place (R96, R112): a frame of a later data set, the completion of
the one in hand, or the end of its pass 0. -/
def readBoundary (lpos : Nat) (x : Found) (s : State) : State :=
  if s.dlp.run.aborting = true ∧ collectingNow s = true then
    let later : Bool := match foundDsn x, s.rch.current with
      | some n, some c => decide (c.dsn < n)
      | _, _ => false
    if later then abortScan (boundaryPosition x s) { s with moc.lpos := some lpos }
    else
      let s' := readFrame lpos x s
      if sameCollection s s' = true ∨ s'.dlp.run.aborting = false then s' else abortScan s'.dlp.run.startPosition s'
  else readFrame lpos x s

end Sys2Proof.Machine
end

