-- ==== Sys2Proof/Machine/Progress.lean ====
section
/-! DEFINITION. What follows every step: the blocks settle, the command at the head goes on when what it waits for has come about, and
an Event notice is sent (R55, R80 to R83, R99, R142, R171, R176, R183). -/

namespace Sys2Proof.Machine

/-! ## The blocks -/

/-- A flush in hand ends when all that was accepted at its demand has committed and the writer has written EOD (R34, R55). What has been
accepted since may wait in a FILLING slot. -/
def settleFlush (s : State) : State :=
  if s.dbf.flush = true ∧ s.cpe.closeAfter = none ∧ s.dbf.writeRing.all (fun d => d.state == .filling) = true
      ∧ writerBusy s = false then endFlush s else s

/-- What waits for the write side to empty demands its flush again where one demanded earlier has ended before that (R34, R49; assumption
log 13). -/
def demandAgain (s : State) : State := if writeSideEmpty s = false ∧ s.dbf.flush = false then demandFlush s else s

/-- The write side settles: engine, writer and flush (R23, R54, R55, R72, R78, R87). -/
def settleWrite (s : State) : State :=
  settleFlush (settleDuty (askWriter (checkWrap (writerIdle (startWriter (settleEngine s))))))

/-- The read side settles: the help of a collection, the next data set, the tape (R15, R56, R89, R97, R112, R114). -/
def settleRead (s : State) : State := settleMotion (seekForRead (settleReader (rebuildHelpEnded (helpEnded s))))

/-- A library order that waits on the flush goes on with its unthread (R142). -/
def settleLibraryUnthread (s : State) : State :=
  match s.cah.mediaOp with
  | some op =>
    if op.orderer = .library ∧ op.kind ≠ .thread ∧ s.cah.state = .threaded then
      if writeSideEmpty s = true ∧ writerBusy s = false then beginUnthread s else demandAgain s
    else s
  | none => s

/-- The Cartridge Handler has nothing in hand that a Drive Reset waits for (R183). -/
def handlerIdle (s : State) : Bool :=
  s.cah.unwind.isNone && s.cah.stageWork.isNone && !s.cah.pushing && s.cah.cleaningStep.isNone && !s.cah.recovering

/-- The work of a Drive Reset goes on: the EOD frame, then the rewind; READY when the Cartridge Handler has done (R85, R183). -/
def settleReset (s : State) : State :=
  match s.frg.resetWork with
  | some .eodFirst =>
    if s.wch.eodPlan = none ∧ writerBusy s = false then
      startSeek .resetRewind botPlace { s with frg.resetWork := some .rewind }
    else s
  | some .handler => if handlerIdle s then driveReady s else s
  | _ => s

/-- The blocks settle. -/
def settleBlocks (s : State) : State := settleReset (settleLibraryUnthread (settleDirection (settleRead (settleWrite s))))

/-! ## The command at the head -/

/-- The write side is empty: a read-type command that waited for it goes on (R49), and what ends with the EOD frame once that is no
longer in hand (R60, R142). -/
def flushOver (tag : Tag) (c : MedCmd) (s : State) : State :=
  if writeSideEmpty s = false then demandAgain s
  else match c with
  | .discardBuffer => if writerBusy s then s else endHead .good s
  | .unthread force => if writerBusy s then s else unthreadFromHead .unthread tag force s
  | .eject => if writerBusy s then s else unthreadFromHead .eject tag false s
  | _ => readOwn c (settleDirection s)

/-- The writer has no EOD frame in hand any more: the command that waited for the tape goes on (R112). -/
def tapeFree (tag : Tag) (c : MedCmd) (s : State) : State :=
  if writerBusy s then s
  else match c with
  | .writeRecords _ _ => beginAppend s
  | .writeFilemarks _ _ => beginAppend s
  | .unthread force => unthreadFromHead .unthread tag force s
  | .eject => unthreadFromHead .eject tag false s
  | _ => tapeWork c s

/-- A record of a command waits for the engine. -/
def Intake.recordOf (tag : Tag) : Intake → Bool
  | .record t _ _ _ _ _ dropped => t == tag && !dropped
  | .filemark _ => false

/-- A Write Records whose last record is Accepted: answered, or with Unbuffered on to its flush once that record is placed (R80). -/
def receivedAll (tag : Tag) (unbuffered : Bool) (s : State) : State :=
  if s.dlp.run.lengths ≠ [] then s
  else if unbuffered = false then endHead (writeOutcome s) s
  else if s.cpe.intake.any (fun x => x.recordOf tag) then s
  else setPhase .waitCommit (demandFlush s)

/-- A Write Filemarks whose filemarks are all placed: answered, or with Sync on to its flush (R82). -/
def placedAll (tag : Tag) (sync : Bool) (s : State) : State :=
  if s.cpe.intake.any (fun x => x == .filemark tag) then s
  else if sync then setPhase .waitSync (demandFlush s)
  else endHead (writeOutcome s) s

/-- The tape stands still. -/
def tapeAtRest (s : State) : Bool :=
  s.moc.operation.isNone && (s.moc.motion == .stopped || s.moc.motion == .resting || s.moc.motion == .relaxed)

/-- The command at the head goes on where its wait is over. -/
def resumeHead (s : State) : State :=
  match s.dlp.queue with
  | [] => s
  | q :: _ =>
    match s.dlp.run.phase with
    | .notBegun => s
    | .waitMedia => beginCommand q.tag q.cmd s
    | .waitFlush => flushOver q.tag q.cmd s
    | .waitTape => tapeFree q.tag q.cmd s
    | .rebuilding => if s.rch.rebuild.isNone then afterRebuild q.cmd s else s
    | .appendScan => s
    | .rereading => takeReread s
    | .receiving => (match q.cmd with
      | .writeRecords u _ => receivedAll q.tag u s
      | _ => s)
    | .waitCommit =>
      if s.dlp.run.lastObject ≤ s.fmc.eod.nextObject ∨ writeSideEmpty s = true then endHead (writeOutcome s) s
      else demandAgain s
    | .placing => (match q.cmd with
      | .writeFilemarks sync _ => placedAll q.tag sync s
      | _ => s)
    | .waitSync => if writeSideEmpty s then endHead (writeOutcome s) s else demandAgain s
    | .waitStop =>
      if writeSideEmpty s = true ∧ writerBusy s = false ∧ tapeAtRest s = true then endHead (writeOutcome s) s
      else demandAgain s
    | .reading => if s.dlp.run.aborting then s else advanceRead s
    | .searching => s
    | .moving => s
    | .threading => s
    | .unthreading => s
    | .ejecting => s

/-- One round: the blocks settle, and the head goes on. -/
def settleRound (s : State) : State := resumeHead (settleBlocks s)

/-- What follows every step. Three rounds let a command pass from one wait to the next where nothing holds it. -/
def progress (s : State) : State := settleBlocks (settleRound (settleRound (settleRound s)))

/-- A step's end: what follows, and the Event notice. -/
def finish (s : State) : State := sendNotices (progress s)

end Sys2Proof.Machine
end

