-- ==== Sys2Proof/Machine/Reset.lean ====
section
/-! DEFINITION. The resets (R151, R168, R182 to R184), the Parameter Store's loading (R158, R185, R186) and the Parameter Store's writes
(R157, R186, R187). -/

namespace Sys2Proof.Machine

/-! ## The Parameter Store (R158, R185, R186) -/

/-- A stored item as it is loaded: its value within range, and otherwise the default, with whether the item was out of range. -/
def loadItem {α : Type} (check : Nat → Option α) (dflt : α) (stored : Option Nat) : α × Bool :=
  match stored with
  | none => (dflt, false)
  | some n =>
    match check n with
    | some a => (a, false)
    | none => (dflt, true)

/-- An item out of range latches Equipment Warning (R158, R186). -/
def warnIf (bad : Bool) (s : State) : State := if bad then latch .equipmentWarning s else s

/-- A Read-Ahead Limit within 0..96 (R57). -/
def limitOf (n : Nat) : Option Nat := if n ≤ 96 then some n else none

/-- The Link Payload Default that the jumper gives (R167, R182). -/
def jumperPayload (j : Jumpers) : Nat := if j.linkPayload then 65536 else 16384

/-- The settings are loaded from the store into the working copies; a NEXT RESET setting acts with it (R57, R150, R185, R186).
DESIGN CHOICE: the Equipment Warning of a setting out of range is latched under the mask held before, and the stored mask is taken after it,
so that an event which that mask masks may keep its notice-pending flag (assumption log 56). -/
def loadSettings (s : State) : State :=
  let d := s.pst.stored
  let limit := loadItem limitOf 32 d.readAheadLimit
  let comp := loadItem switchOf true d.compression
  let auto := loadItem switchOf s.jumpers.autoThread d.autoThread
  let lib := loadItem policyOf .grant d.libraryPolicy
  let link := loadItem policyOf .ask d.linkPolicy
  let pay := loadItem payloadOf (jumperPayload s.jumpers) d.linkPayload
  let ovr := loadItem overrideOf none d.addressOverride
  let s := warnIf limit.2 (warnIf comp.2 (warnIf auto.2 (warnIf lib.2 (warnIf link.2 (warnIf pay.2 (warnIf ovr.2 s))))))
  { s with
    events := withMask d.eventMask s.events
    dbf.readAheadLimit := limit.1
    cpe.switchOn := comp.1
    pst.autoThread := auto.1
    pst.libraryPolicy := lib.1
    pst.linkPolicy := link.1
    pst.linkPayload := pay.1
    pst.addressOverride := ovr.1
    dlp.payloadDefault := pay.1
    lbp.address := ovr.1.getD s.jumpers.address }

/-- An HCI within 0..1000 (R158). -/
def hciOf (n : Nat) : Option Nat := if n ≤ 1000 then some n else none

/-- The higher of two levels. -/
def higherLevel (a b : Level) : Level := if a.rank < b.rank then b else a

/-- The retained items are loaded (R158): the level is at least the one that the HCI and the Motion Seconds give. -/
def loadRetained (s : State) : State :=
  let hci := loadItem hciOf 0 s.pst.stored.hci
  let lv := loadItem levelFromCode .normal s.pst.stored.level
  let secs := s.pst.stored.motionSeconds.getD 0
  let l := higherLevel lv.1 (levelOf hci.1 secs)
  let s := warnIf hci.2 (warnIf lv.2 s)
  setConditionCap (levelCap l) { s with
    hcm := { hci := hci.1, level := l, motionSeconds := secs, cleaningCall := l != .normal, samples := 0 }
    frg.levelEventDue := l != .normal }

/-- The fault history is loaded as it stands; a record that a Power-On or the Reset Line met open is closed into it, and records
closed before the load follow (R186). -/
def loadHistory (s : State) : State :=
  let h := match s.frg.metOpen with
    | some l => closeInto ⟨l, .powerOn⟩ s.pst.stored.history
    | none => s.pst.stored.history
  let s' := { s with pst.history := s.pst.history.foldl (fun acc r => closeInto r acc) h, frg.metOpen := none }
  if s.frg.metOpen = none ∧ s.pst.history = [] then s' else copyRecord s'

/-- The store is loaded at the end of STARTING (R186); the effective policies and Auto-Thread take the working copies (R150). -/
def loadStore (s : State) : State := refreshEffective (loadHistory (loadRetained (loadSettings s)))

/-- What the store holds after a write (R157, R186, R187). -/
def Stored.write (d : Stored) : StoreWrite → Stored
  | .settings _ c => { c with history := d.history, current := d.current }
  | .retained h l n => { d with hci := some h, level := some l.rank, motionSeconds := some n }
  | .faults c h => { d with current := c, history := h.getD d.history }

/-- The oldest write of the store ends (R157, R186, R187): the Store Status follows it, and a Save Settings is answered. -/
def storeWriteEnds (ok : Bool) (s : State) : State :=
  match s.pst.writes with
  | [] => s
  | w :: rest =>
    let s := { s with pst.writes := rest, pst.statusGood := ok }
    let s := if ok then { s with pst.stored := s.pst.stored.write w } else latch .equipmentWarning s
    match w with
    | .settings (some t) _ => dropTag t (reply t goodReply s)
    | _ => s

/-! ## Power-On and the Reset Line (R151, R182, R183) -/

/-- The cartridge as the physical world holds it at a Power-On: where one stands in the drive, LOADING has still to find it. -/
def cartridgeAtPower (c : Option Cartridge) : Cah :=
  match c with
  | some _ => { state := .seated, cartridge := c, found := true }
  | none => {}

/-- Every block takes its Power-On values and STARTING begins (R22, R42, R61, R85, R107, R123, R129, R151, R177, R181, R182). What
the store holds, the cartridge, the line's signal, what was sent and the waiting commands stay. -/
def powerOnState (j : Jumpers) (s : State) : State :=
  { State.reset with
    pending := s.pending
    out := s.out
    jumpers := j
    dlp := { signal := s.dlp.signal, payloadDefault := jumperPayload j }
    lbp := { line := if j.libraryEnable then .listening else .disabled, address := j.address }
    cah := cartridgeAtPower s.cah.cartridge
    frg := { metOpen := s.pst.stored.current }
    pst := { stored := s.pst.stored } }

/-- The link follows the line once the drive is out of STARTING (R167, R183). -/
def linkFollows (s : State) : State :=
  if s.dlp.signal then { s with dlp.link := .awaitingHello, dlp.helloTimer := 0 } else s

/-- The recovery of a threaded tape goes on from the stack as it stands (R184): the tension, the reacquisition and the rewind where
the Wrap stage is on the stack, and otherwise the pops. From HALTED, a Servo Lost in the reacquisition is a new Motion Fault (R129). -/
def resumeRecovery (s : State) : State :=
  let s := { s with
    cah.stageWork := none
    cah.unwind := none
    moc.servoLost := if s.moc.motion = Motion.halted then 1 else s.moc.servoLost }
  match s.cah.stack.length with
  | 4 => beginPush .tension 1 s
  | 5 => beginPush .acquire 1 s
  | 6 => beginAcquire s
  | _ => unwindStack .recovery s

/-- The drive finds in LOADING what stands in it (R151, R183, R184): no stage in the tape path leaves it READY, with a cartridge that
stood in it seated afresh, and custody with the Library Port (R146); stages found begin the recovery. DESIGN CHOICE: a Drive Reset
that repeated the memory test of STARTING has no work of its own in that recovery. It runs in RECOVERING, the Drive Reset counts as ended
when it begins, and a Reset Drive or a Drive Reset order taken then is refused Becoming Ready (R180, R182, R183; assumption log 54). -/
def findCartridge (stages : Nat) (s : State) : State :=
  match s.cah.cartridge with
  | none => driveReady s
  | some c =>
    if s.cah.found = false then driveReady s
    else if stages = 0 then driveReady (seat c (recoverCustody { s with cah.found := false }))
    else
      resumeRecovery { s with
        frg.condition := .recovering
        frg.resetWork := none
        cah.found := false
        cah.state := .unthreading
        cah.recovering := true
        cah.sensedType := some c.notch
        cah.writeProtected := c.writeProtected
        cah.stack := stageOrder.take (min stages 4) }

/-- The buffer memory test ends (R183): in STARTING, or in the LOADING of a Drive Reset that released a failed test. -/
def memoryTestEnds (passed : Bool) (stages : Nat) (s : State) : State :=
  let starting := s.frg.condition = .starting ∧ s.frg.lineAsserted = false
  let again := s.frg.resetWork = some .memoryTest
  if starting ∨ again then
    let s := if starting then linkFollows s else s
    if passed then findCartridge stages (loadStore { s with frg.condition := .loading, frg.testFailed := false, frg.storeLoaded := true })
    else reportFault .bufferMemory .memoryTest { s with frg.testFailed := true }
  else s

/-! ## Drive Reset (R183) -/

/-- Every event but Drive Faulted is cleared (R177). -/
def clearForReset (s : State) : State :=
  { s with events := changeEvents ((List.range 25).map (· + 1) |>.filter (· ≠ Event.driveFaulted.number)) EventFlags.clear s.events }

/-- A queued command is answered ABORTED. -/
def abortQueued (q : QEntry) (n : Nat) (s : State) : State :=
  dropTag q.tag (reply q.tag ⟨.aborted, resultsOf q.cmd n s⟩ s)

/-- Every command in the queue is answered ABORTED in queue order, the head included (R171). -/
def abortQueue (s : State) : State :=
  match s.dlp.queue with
  | [] => s
  | _ :: rest =>
    let s := endHead .aborted { s with dlp.run.aborting := true }
    rest.foldl (fun acc q => abortQueued q 0 acc) { s with dlp.queue := [], dlp.run := {} }

/-- An open fault record is closed into the history (R183, R188). -/
def closeRecord (s : State) : State :=
  match s.frg.current with
  | some l => copyRecord { s with pst.history := closeInto ⟨l, .driveReset⟩ s.pst.history, frg.current := none }
  | none => s

/-- The operation in progress ends: a moving tape ramps to 0, and a re-tension goes on for nothing but the tape's rest (R109, R129). -/
def endMotion (s : State) : State :=
  let s := { s with moc.waiting := none }
  if runningPhase s = some .retension then
    { s with moc.operation := some ⟨.stopping, none, [.retension], false⟩ }
  else if s.moc.motion = .streaming ∨ s.moc.motion = .seeking ∨ s.moc.motion = .ramping ∨ s.moc.motion = .backhitch
      ∨ s.moc.motion = .turnaround then
    enterPhase ⟨.stopping, none, [.ramp (some 0)], false⟩ s
  else s

/-- The buffer, engine and channels at a Drive Reset (R22, R42, R61, R85, R107): both sides are dropped, a search or pass ends. -/
def resetBlocks (s : State) : State :=
  let s := discardWriteSide { s with rch.scan := none, rch.rebuild := none }
  let s := dropReadSide true s
  { s with
    rch.duty := if s.rch.duty = .verify then .verify else .idle
    rch.expected := none
    dlp.heldTime := 0
    dlp.linkBytes := 0
    dbf.starvedTime := 0
    sgv.mark := s.timeBase }

/-- The tape of a THREADED cartridge at a Drive Reset (R129, R85). -/
def resetThreaded (s : State) : State := resetMotion (if s.moc.motion = .halted then s else endMotion s)

/-- The retries of a STUCK cartridge (R139, R145): the push where the stack is empty, and otherwise the pops from its top. -/
def retryStuck (s : State) : State :=
  let s := { s with frg.resetWork := some .handler }
  if s.cah.stack.isEmpty then beginEject s
  else unwindStack (if s.cah.recovering then .recovery else .stuck) { s with cah.state := .unthreading }

/-- An Unthread that runs on goes no further than HELD: an Eject that ordered it has been answered (R144, R171). -/
def keepUnthread (s : State) : State :=
  { s with cah.mediaOp := s.cah.mediaOp.map (fun op => { op with kind := if op.kind = .eject then .unthread else op.kind }) }

/-- The Cartridge Handler's part of a Drive Reset, by the state it meets (R139, R144, R151, R163, R184). -/
def resetHandler (s : State) : State :=
  match s.cah.state with
  | .threaded => resetThreaded { s with cah.mediaOp := none }
  | .threading => abortThread { s with frg.resetWork := some .handler }
  | .unthreading =>
    if s.cah.recovering then resumeRecovery { s with frg.resetWork := some .handler }
    else if pastWriteBack s then driveReady (keepUnthread s)
    else resetThreaded { s with cah.state := .threaded, cah.mediaOp := none, cah.writeBackWaits := false }
  | .stuck => retryStuck s
  | .cleaning =>
    if s.moc.motion = .halted then resetMotion s
    else abortCleaning false { s with frg.resetWork := some .handler }
  | .empty => driveReady s
  | .seated => driveReady s
  | .negotiated => driveReady s
  | .held => driveReady s
  | .ejecting => driveReady s

/-- A Drive Reset (R183): it adds nothing to one in progress. -/
def driveReset (s : State) : State :=
  if s.frg.resetWork.isSome then s
  else
    let s := closeRecord (abortQueue (clearForReset s))
    let s := { s with frg.condition := .loading }
    if s.frg.testFailed then { s with frg.resetWork := some .memoryTest }
    else resetHandler (resetBlocks (loadSettings s))

/-! ## Link Reset (R168) -/

/-- A Save Settings in hand keeps no tag. -/
def StoreWrite.untag : StoreWrite → StoreWrite
  | .settings _ c => .settings none c
  | w => w

/-- A Link Reset (R168). -/
def linkReset (s : State) : State :=
  let s := { s with dlp.queue := s.dlp.queue.take 1 }
  let s := if s.dlp.queue.isEmpty then s else linkAbortHead s
  { s with
    dlp.tags := []
    dlp.creditsOut := 0
    dlp.receiveCredits := 0
    events := withMask s.pst.stored.eventMask s.events
    pst.writes := s.pst.writes.map StoreWrite.untag
    cah.question := s.cah.question.map (fun q => { q with tag := none })
    cah.grace := if s.cah.holder = .link then some 0 else s.cah.grace }

end Sys2Proof.Machine
end

