-- ==== Sys2Proof/Machine/Custody.lean ====
section
/-! DEFINITION. Custody (R146 to R149): requests, questions, answers, releases and the link grace. -/

namespace Sys2Proof.Machine

/-- The other port. -/
def Port.other : Port → Port
  | .link => .library
  | .library => .link

/-- The policy that decides a request: the holder's effective policy (R147). -/
def holderPolicy (s : State) : Policy :=
  match s.cah.holder with
  | .library => s.cah.libraryPolicy
  | .link => s.cah.linkPolicy

/-- How a Custody Request is decided (R146, R147). -/
inductive CustodyRuling where
  | held
  | refused (r : Reason)
  | granted
  | asked
deriving DecidableEq, Repr

/-- The ruling on a Custody Request (R146, R147). -/
def custodyRuling (p : Port) (s : State) : CustodyRuling :=
  if s.cah.state = .empty then .refused .noCartridge
  else if s.cah.holder = p then .held
  else if s.cah.question.isSome then .refused .questionPending
  else if p = .library ∧ mediumWork s = true then .refused .laterMediumWork
  else if p = .library ∧ s.cah.state = .cleaning then .refused .laterCleaning
  else match holderPolicy s with
  | .grant => .granted
  | .refuse => .refused .custodyRefused
  | .ask => .asked

/-- While the link is UP, the Custody Asked notice is sent for a question posted to the Data Link (R176). -/
def noticeQuestion (s : State) : State :=
  match s.cah.question with
  | some q => if q.requester = .library ∧ s.dlp.link = .up then emit (.custodyAsked q.requester) s else s
  | none => s

/-- A question is posted to the holder (R148). -/
def postQuestion (p : Port) (tag : Option Tag) (s : State) : State :=
  let s := { s with cah.question := some { requester := p, tag := tag } }
  match p with
  | .library => noticeQuestion (latch .custodyAsked s)
  | .link => { s with lbp.questionFlag := true }

/-- The reason with which a Custody Answer is refused (R148). -/
def answerRefusal (p : Port) (s : State) : Option Reason :=
  if s.cah.holder ≠ p then some .noCustody
  else if s.cah.question = none then some .noQuestion
  else none

/-- The reason with which a Release is refused (R146). -/
def releaseRefusal (p : Port) (s : State) : Option Reason :=
  if s.cah.state = .empty then some .noCartridge
  else if s.cah.holder ≠ p then some .noCustody
  else none

/-- A Release (R146, R148): custody passes to the other port, which settles a pending question as granted. -/
def releaseCustody (p : Port) (s : State) : State :=
  if s.cah.question.isSome then settleQuestion true s else passCustody p.other s

/-- The 15 s timer of a question runs out (R148). -/
def questionExpires (s : State) : State := settleQuestion false s

/-- The grace timer reaches 60 s (R149): custody passes to the Library Port, and a question of a Library request is granted. -/
def graceExpires (s : State) : State :=
  if s.cah.grace.isNone then s
  else
    let s := { s with cah.grace := none }
    match s.cah.question with
    | some q => if q.requester = .library then settleQuestion true s else passCustody .library s
    | none => passCustody .library s

end Sys2Proof.Machine
end

