-- ==== Sys2Proof/Machine/Wire.lean ====
section
/-! DEFINITION. The bytes of the section Layouts of the port chapter: multi-byte numbers, the frame check (R166), frames (R165), the sense
record and the outcome block (R173, R174), and the records that the Library Port sends (R179, R180). -/

namespace Sys2Proof.Machine

/-! ## Numbers -/

/-- A number in `n` bytes, most significant byte first (section Layouts). -/
def bytesOf : Nat → Nat → List Byte
  | 0, _ => []
  | n + 1, x => BitVec.ofNat 8 (x / 256 ^ n) :: bytesOf n x

/-! ## The check (R166) -/

/-- The generator polynomial with the least significant bit of the register as the term of highest power: a byte enters least
significant bit first. -/
def crcPolynomial : BitVec 32 := 0xEDB88320#32

/-- One bit leaves the register. -/
def crcBit (c : BitVec 32) : BitVec 32 := if c.getLsbD 0 then (c >>> 1) ^^^ crcPolynomial else c >>> 1

/-- `n` bits leave the register. -/
def crcBits : Nat → BitVec 32 → BitVec 32
  | 0, c => c
  | n + 1, c => crcBits n (crcBit c)

/-- One byte enters the register. -/
def crcByte (c : BitVec 32) (b : Byte) : BitVec 32 := crcBits 8 (c ^^^ b.setWidth 32)

/-- The check of R166: preset to all ones, complemented at the end. DESIGN CHOICE: the register is complemented as it stands here, with its
lowest bit as the term of highest power, and that number is the one sent most significant byte first; R166 says only that a byte enters
least significant bit first (assumption log 49). -/
def crc32 (bs : List Byte) : BitVec 32 := ~~~(bs.foldl crcByte 0xFFFFFFFF#32)

/-- A frame: header, payload and check (R165, section Layouts). -/
def frameBytes (kind flags : Nat) (tag : Tag) (payload : List Byte) : List Byte :=
  let body := [BitVec.ofNat 8 kind, BitVec.ofNat 8 flags, tag] ++ bytesOf 3 payload.length ++ payload
  body ++ bytesOf 4 (crc32 body).toNat

/-- The framing test on the check: the last four bytes are the check of those before. -/
def checkHolds (bs : List Byte) : Bool :=
  4 ≤ bs.length && bs.drop (bs.length - 4) == bytesOf 4 (crc32 (bs.take (bs.length - 4))).toNat

/-! ## The sense record (R174) -/

def stageCode : Stage → Nat
  | .seatLock => 3
  | .grip => 4
  | .draw => 5
  | .wrap => 6
  | .tension => 7
  | .acquire => 8

def detailCode : Option Detail → Nat
  | none => 0
  | some .unreadable => 1
  | some .formatError => 2
  | some (.stage st) => stageCode st

def unitCode : Option FaultUnit → Nat
  | none => 0
  | some .bufferMemory => 1
  | some .reelDrive => 2
  | some .servo => 3
  | some .threader => 4
  | some .head => 5
  | some .compression => 6
  | some .cmReader => 7
  | some .link => 8

def bit (b : Bool) (n : Nat) : Nat := if b then 2 ^ n else 0

/-- The flags byte of a sense record. -/
def senseFlags (x : Sense) : Nat :=
  bit x.retry 0 + bit x.deferred 1 + bit x.info.isSome 2 + bit x.dsn.isSome 3 + bit x.count.isSome 4

/-- The sense record: 21 bytes. What a field holds that is not given is not stated (assumption log 4). -/
def senseBytes (x : Sense) : List Byte :=
  [BitVec.ofNat 8 x.reason.outcomeCode, BitVec.ofNat 8 x.reason.code, BitVec.ofNat 8 (detailCode x.detail),
    BitVec.ofNat 8 (unitCode x.unit), BitVec.ofNat 8 (senseFlags x)]
  ++ bytesOf 6 (x.info.getD Config.absentInformation) ++ bytesOf 4 (x.dsn.getD Config.absentDsn)
  ++ bytesOf 6 (x.count.getD Config.absentCount)

/-- The outcome block (R173): one byte for GOOD and ABORTED, the sense record otherwise. -/
def outcomeBytes : OutcomeBlock → List Byte
  | .good => [0#8]
  | .aborted => [11#8]
  | .sense x => senseBytes x

/-! ## The results of a reply (R173)

Every count and object number is six bytes, most significant first, and the results stand in the order in which the command's rule names
them. How any other figure is laid out is given nowhere: `Config.figureBytes` stands for its bytes (assumption log 45). -/

/-- A count or an object number: six bytes, most significant first (R173). -/
def countBytes (n : Nat) : List Byte := bytesOf 6 n

/-- A list of like results, oldest or lowest first; how the payload says how many there are is given nowhere. -/
def listBytes {α : Type} (name : String) (f : α → List Byte) (l : List α) : List Byte :=
  Config.figureBytes name l.length ++ l.flatMap f

/-- An entry of the Tape Directory (R12). -/
def dirBytes (e : DirEntry) : List Byte :=
  Config.figureBytes "Wrap" e.wrap ++ Config.figureBytes "First DSN" e.firstDsn ++ Config.figureBytes "Last DSN" e.lastDsn
    ++ countBytes e.object ++ countBytes e.filemarksBefore

/-- An entry of the Session History (R132). -/
def sessionBytes (e : SessionEntry) : List Byte :=
  Config.figureBytes "Drive Serial" e.serial ++ countBytes e.dataSets ++ countBytes e.rewrites ++ countBytes e.recovered
    ++ countBytes e.unrecovered

/-- An attribute's contents (R132). -/
def attrBytes : AttrValue → List Byte
  | .cartType t => Config.figureBytes "Cartridge Type" t
  | .level n => Config.figureBytes "Format Level" n
  | .number n => countBytes n
  | .text x => Config.figureBytes "Serial" x
  | .flag b => Config.figureBytes "Session Open" b
  | .directory d => listBytes "Tape Directory" dirBytes d
  | .eod e n => Config.figureBytes "Wrap" e.wrap ++ Config.figureBytes "LPOS" e.lpos ++ Config.figureBytes "DSN" e.lastDsn
      ++ countBytes e.nextObject ++ countBytes n
  | .ratio r => Config.figureBytes "Last Session Ratio" r
  | .history h => listBytes "Session History" sessionBytes h
  | .user v => Config.figureBytes "User Attribute" v

/-- What Status gives (R170, with R43, R108, R130, R153, R164). -/
def statusBytes (r : StatusReport) : List Byte :=
  Config.figureBytes "Drive Condition" r.condition ++ Config.figureBytes "Cartridge State" r.cart
    ++ Config.figureBytes "Medium Mode" r.mode ++ Config.figureBytes "Cleaning Step" r.cleaningStep
    ++ Config.figureBytes "Section" r.cleaningSection ++ Config.figureBytes "Motion State" r.motion
    ++ Config.figureBytes "Speed Step" r.step ++ Config.figureBytes "Target Step" r.target ++ Config.figureBytes "Step Cap" r.cap
    ++ Config.figureBytes "Direction" r.direction ++ r.slotCounts.flatMap countBytes
    ++ Config.figureBytes "Read-Ahead" r.readAheadActive ++ Config.figureBytes "Custody" r.holder
    ++ Config.figureBytes "Question" r.question ++ Config.figureBytes "HCI" r.hci ++ Config.figureBytes "Condition Level" r.level
    ++ countBytes r.motionSeconds ++ Config.figureBytes "Cleaning Call" r.cleaningCall
    ++ r.events.flatMap (fun e => Config.figureBytes "Latched" e.latched ++ countBytes e.count ++ Config.figureBytes "Mask" e.masked)

/-- What Read Counters gives (R170). -/
def counterBytes (r : CounterReport) : List Byte :=
  [r.accepted, r.committed, r.discarded, r.held, r.readSideDrops, r.compressionFaults, r.dataSetsCommitted, r.rewriteFrames,
      r.retries, r.strays, r.dataSetsRead, r.recovered, r.unrecovered, r.backhitches, r.turnarounds, r.speedChanges,
      r.servoLosts].flatMap countBytes
    ++ Config.figureBytes "CRS" r.crs ++ Config.figureBytes "HS" r.hs ++ Config.figureBytes "Target Step" r.target
    ++ Config.figureBytes "Pending Target" r.pendingTarget ++ Config.figureBytes "HCI" r.hci
    ++ Config.figureBytes "Condition Level" r.level ++ countBytes r.motionSeconds
    ++ Config.figureBytes "Cleaning Call" r.cleaningCall ++ countBytes r.samples ++ countBytes r.linkErrors

/-- An entry of a fault record (R187). -/
def faultBytes (e : FaultEntry) : List Byte :=
  Config.figureBytes "Unit" e.unit ++ Config.figureBytes "Cause" e.cause ++ Config.figureBytes "Time Base" e.time
    ++ Config.figureBytes "Drive Condition" e.condition ++ Config.figureBytes "Motion State" e.motion
    ++ Config.figureBytes "Cartridge State" e.cart

/-- A closed fault record (R188). -/
def closedBytes (r : ClosedRecord) : List Byte :=
  listBytes "Fault Record" faultBytes r.entries ++ Config.figureBytes "Closed By" r.by_

/-- The results of a reply (R173). -/
def resultBytes : Results → List Byte
  | .none => []
  | .position p => countBytes p
  | .records n p => countBytes n ++ countBytes p
  | .discarded n => countBytes n
  | .value n => Config.figureBytes "Setting" n
  | .attribute_ v => attrBytes v
  | .status r => statusBytes r
  | .identity vendor model serial firmware address =>
      Config.figureBytes "Vendor" vendor ++ Config.figureBytes "Model" model ++ Config.figureBytes "Drive Serial" serial
        ++ Config.figureBytes "Firmware Level" firmware ++ Config.figureBytes "Drive Address" address
  | .positionReport p wrap lpos ew last =>
      countBytes p ++ Config.figureBytes "Wrap" wrap ++ Config.figureBytes "LPOS" lpos ++ Config.figureBytes "Early Warning" ew
        ++ (match last with
          | .none => Config.figureBytes "Last Immediate Result" false
          | some x => Config.figureBytes "Last Immediate Result" true ++ outcomeBytes x.outcome ++ countBytes x.position)
  | .counters r => counterBytes r
  | .faults suspect current history good =>
      Config.figureBytes "Suspect Unit" suspect
        ++ (match current with
          | .none => Config.figureBytes "Current Record" false
          | some l => Config.figureBytes "Current Record" true ++ listBytes "Fault Record" faultBytes l)
        ++ listBytes "Fault History" closedBytes history ++ Config.figureBytes "Store Status" good

/-! ## Library records (R178 to R180) -/

def conditionCode : Condition → Nat
  | .starting => 0
  | .loading => 1
  | .recovering => 2
  | .ready => 3
  | .faulted => 4

def cartCode : CartState → Nat
  | .empty => 0
  | .seated => 1
  | .negotiated => 2
  | .threading => 3
  | .threaded => 4
  | .unthreading => 5
  | .held => 6
  | .ejecting => 7
  | .cleaning => 8
  | .stuck => 9

def modeCode : Option Mode → Nat
  | none => 0
  | some .readWrite => 1
  | some (.readOnly .writeProtected) => 2
  | some (.readOnly .level3) => 3
  | some (.readOnly .cmUnreadable) => 4
  | some .writeSuspended => 5
  | some .incompatible => 6

/-- The flags byte of the status record. -/
def libFlags (r : LibStatus) : Nat :=
  bit r.linkHolds 0 + bit r.questionFlag 1 + bit r.cleaningCall 2 + bit r.earlyWarning 3

/-- The sum of bytes, modulo 256. -/
def byteSum (bs : List Byte) : Byte := bs.foldl (· + ·) 0#8

/-- A record with the check byte that brings the sum of its bytes to 0 (R178). -/
def withCheck (bs : List Byte) : List Byte := bs ++ [-(byteSum bs)]

/-- The library status record, 8 bytes, and the Reply record, 11 bytes. -/
def libBytes : LibRecord → List Byte
  | .status r => withCheck [BitVec.ofNat 8 (r.address % 16), 2#8, BitVec.ofNat 8 (conditionCode r.condition),
      BitVec.ofNat 8 (cartCode r.cart), BitVec.ofNat 8 (modeCode r.mode), BitVec.ofNat 8 r.level.rank,
      BitVec.ofNat 8 (libFlags r)]
  | .reply address reason info => withCheck ([BitVec.ofNat 8 (address % 16), 3#8,
      BitVec.ofNat 8 (match reason with | some x => x.outcomeCode | none => 0),
      BitVec.ofNat 8 (match reason with | some x => x.code | none => 0)]
      ++ bytesOf 6 (info.getD Config.absentInformation))

/-- The frame of everything the drive sends on the Data Link (R165, R167, R169, R173, R176), and the record of everything it sends on the
Library Port (R179, R180). Where no rule lays out a figure of a payload, Config stands for its bytes (assumption log 45). -/
def outputBytes : Output → Option (List Byte)
  | .hello m a => some (frameBytes 1 0 0#8 (bytesOf 3 m ++ bytesOf 3 a))
  | .credit n => some (frameBytes 6 0 0#8 (bytesOf 2 n))
  | .dataIn tag last payload => some (frameBytes 5 (bit last 0) tag payload)
  | .reply tag r => some (frameBytes 3 0 tag (outcomeBytes r.outcome ++ resultBytes r.results))
  | .library r => some (libBytes r)
  | .eventNotice es => some (frameBytes 7 0 0#8 (Config.eventNoticePayload es))
  | .custodyAsked _ => some (frameBytes 7 0 0#8 Config.custodyAskedPayload)
  | .frame _ _ => none

end Sys2Proof.Machine
end

