-- ==== Sys2Proof/Machine/Link.lean ====
section
/-! DEFINITION. The reset and link families of the table: resets and the memory test (R182, R183), the line and the Hello exchange (R165
to R168), flow on the link (R50, R51, R169), and the taking of a COMMAND frame (R170, R171). -/

namespace Sys2Proof.Machine

/-- What a meaning answers. -/
abbrev Answer := Host.Outcome State Fault Refusal

/-! ## Resets (R182, R183) -/

/-- POWER_ON. -/
def execPowerOn (j : Jumpers) (s : State) : Answer := .next (powerOnState j s)

/-- RESET_LINE: a Power-On in every respect. -/
def execResetLine (j : Jumpers) (s : State) : Answer := .next (powerOnState j s)

/-- RESET_LINE_ASSERTED: the blocks take their Power-On values, and the drive is held in STARTING. DESIGN CHOICE: the
latched jumpers stand while the line is asserted, and RESET_LINE samples them at its release, as the start of STARTING (R182; assumption
log 55). -/
def execResetLineAsserted (s : State) : Answer :=
  let s' := powerOnState s.jumpers s
  .next { s' with frg.lineAsserted := true }

/-- BUFFER_MEMORY_TEST_DONE. -/
def execBufferMemoryTestDone (passed : Bool) (stages : Nat) (s : State) : Answer :=
  .next (finish (memoryTestEnds passed stages s))

/-! ## The link (R166, R167, R168) -/

/-- What each move to UP does beside the credits and the Event notice: the grace timer stops, a pending question is noticed. R167 lists
what a move to UP does and gives those things no order. DESIGN CHOICE: the Custody Asked notice is sent here, before the Event notice
(assumption log 53). -/
def comeUp (s : State) : State := noticeQuestion { s with cah.grace := none }

/-- The drive sends its HELLO with an agreed size, and the link is UP (R167). -/
def sayHello (agreed : Nat) (s : State) : State :=
  emit (.hello 65536 agreed) { s with dlp.agreed := agreed, dlp.link := .up, dlp.helloTimer := 0 }

/-- A frame that passes the framing test (R166, R167): in AWAITING HELLO it brings the link UP with the Link Payload Default, and
it is taken before that move's credits are granted. -/
def frameIn (take : State → State) (s : State) : State :=
  match s.dlp.link with
  | .down => s
  | .up => take { s with dlp.crcRun := 0 }
  | .awaitingHello =>
    sendNotices (comeUp (grantCredits (take (sayHello s.dlp.payloadDefault { s with dlp.crcRun := 0 }))))

/-- LINE_SIGNAL_APPEARS: in STARTING the link stays DOWN (R183). -/
def execLineSignalAppears (s : State) : Answer :=
  .next (if s.frg.condition = .starting ∨ s.dlp.link ≠ .down then { s with dlp.signal := true }
    else { s with dlp.signal := true, dlp.link := .awaitingHello, dlp.helloTimer := 0 })

/-- LINE_SIGNAL_LOST. -/
def execLineSignalLost (s : State) : Answer :=
  .next (if s.dlp.link = .down then { s with dlp.signal := false }
    else
      let s := linkReset { s with dlp.signal := false }
      finish { s with dlp.link := .down })

/-- HELLO: in AWAITING HELLO it fixes the agreed size; in UP a Link Reset comes first. -/
def execHello (maxPayload : BitVec 24) (s : State) : Answer :=
  .next (match s.dlp.link with
    | .down => s
    | .awaitingHello =>
      sendNotices (comeUp (grantCredits (sayHello (agreedSize maxPayload.toNat) { s with dlp.crcRun := 0 })))
    | .up =>
      let s := linkReset { s with dlp.crcRun := 0 }
      finish (comeUp (grantCredits (sayHello (agreedSize maxPayload.toNat) { s with dlp.link := .awaitingHello }))))

/-- HELLO_TIMEOUT. -/
def execHelloTimeout (s : State) : Answer :=
  .next (if s.dlp.link = .awaitingHello then sendNotices (comeUp (grantCredits (sayHello s.dlp.payloadDefault s))) else s)

/-- The eighth bad check in a row: the LINK fault, and the link as gone down and come up again (R166). -/
def crcRunFull (s : State) : State :=
  let s := linkReset (reportFault .link .crcRun { s with dlp.crcRun := 0 })
  { s with dlp.link := .awaitingHello, dlp.helloTimer := 0 }

/-- BAD_CHECK_FRAME. -/
def execBadCheckFrame (s : State) : Answer :=
  .next (if s.dlp.link = .down then s
    else
      let s := linkError s
      if s.dlp.crcRun + 1 < 8 then sendNotices { s with dlp.crcRun := s.dlp.crcRun + 1 } else finish (crcRunFull s))

/-- A frame with a good check that fails the other tests is discarded (R165). -/
def rejectFrame (s : State) : State :=
  if s.dlp.link = .down then s else sendNotices (linkError { s with dlp.crcRun := 0 })

/-- FRAME_REJECTED. -/
def execFrameRejected (s : State) : Answer := .next (rejectFrame s)

/-! ## Flow (R50, R51, R169) -/

/-- The append point of the Write Records at the head stands, so records become Accepted as they complete (R50, R80). -/
def appendStands (s : State) : Bool :=
  match s.dlp.run.phase with
  | .waitTape | .rebuilding | .appendScan | .rereading => false
  | _ => true

/-- A Data-Out payload is placed in a staging buffer; bytes beyond the command's records are discarded with a Link Error (R50,
R52). -/
def placeDataOut (tag : Tag) (payload : List Byte) (s : State) : State :=
  let n := min payload.length (bytesLeft s)
  let s := if n < payload.length then linkError s else s
  let s := { s with
    dbf.staging := s.dbf.staging ++ [⟨tag, payload.take n⟩]
    dlp.linkBytes := s.dlp.linkBytes + n }
  receiveFrom (appendStands s) tag (s.dlp.run.lengths.length) n s

/-- A DATA-OUT as it is handled on arrival (R51). -/
def takeDataOut (tag : Tag) (payload : List Byte) (s : State) : State :=
  if s.dlp.creditsOut = 0 then linkError s
  else
    let s := { s with dlp.creditsOut := s.dlp.creditsOut - 1 }
    if receivesFor tag s then placeDataOut tag payload s else grantCredits s

/-- A DATA-OUT payload has the size its kind requires (R165): up to the agreed size, or 65,536 before the link is UP. -/
def dataOutSizeOk (payload : List Byte) (s : State) : Bool :=
  1 ≤ payload.length && payload.length ≤ (if s.dlp.link = .up then s.dlp.agreed else 65536)

/-- DATA_OUT. -/
def execDataOut (tag : Tag) (payload : List Byte) (s : State) : Answer :=
  .next (if dataOutSizeOk payload s then finish (frameIn (takeDataOut tag payload) s) else rejectFrame s)

/-- A CREDIT from the host (R169). -/
def addCredit (n : Nat) (s : State) : State :=
  if 1024 < s.dlp.receiveCredits + n then linkError { s with dlp.receiveCredits := 1024 }
  else { s with dlp.receiveCredits := s.dlp.receiveCredits + n }

/-- RECEIVE_CREDIT. -/
def execReceiveCredit (count : BitVec 16) (s : State) : Answer :=
  .next (sendNotices (frameIn (addCredit count.toNat) s))

/-- DATA_IN_SEND. -/
def execDataInSend (s : State) : Answer := .next (finish (dataInStep s))

/-! ## Taking a COMMAND (R170, R171) -/

/-- The drive condition bars every command but Status and Identify (R170, R183). -/
def notServed (s : State) : Bool := s.frg.condition != .ready && s.frg.condition != .faulted

/-- The first rows of R170 for a command whose name and fields fit: its tag, and the drive condition where that bars it. -/
def commandIn (tag : Tag) (barred : State → Bool) (k : State → State) (s : State) : State :=
  if s.dlp.tags.contains tag then reply tag (senseReply .tagInUse) s
  else if barred s then reply tag (senseReply .becomingReady) s
  else k s

/-- An immediate command: its frame is taken, and a notice may follow (R170, R176). -/
def immediate (tag : Tag) (barred : State → Bool) (k : State → State) (s : State) : Answer :=
  .next (sendNotices (frameIn (commandIn tag barred k) s))

/-- UNKNOWN_COMMAND: a name that is not one of the drive's, or fields that do not fit (R170). -/
def execUnknownCommand (tag : Tag) (s : State) : Answer :=
  immediate tag (fun _ => false) (fun s => reply tag (senseReply .badCommand) s) s

/-- A medium command is refused while the queue holds 16, and otherwise joins its tail; at the head it begins (R170, R171). -/
def enqueue (tag : Tag) (c : MedCmd) (s : State) : State :=
  if 16 ≤ s.dlp.queue.length then reply tag (senseReply .queueFull) s
  else
    let s' := { s with dlp.queue := s.dlp.queue ++ [⟨tag, c⟩], dlp.tags := s.dlp.tags ++ [tag] }
    if s.dlp.queue.isEmpty then beginHead s' else s'

/-- A medium command is taken from its frame (R170, R171). -/
def mediumIn (tag : Tag) (c : MedCmd) (s : State) : Answer := .next (finish (frameIn (commandIn tag notServed (enqueue tag c)) s))

/-! ## The medium commands -/

/-- WRITE_RECORDS. -/
def execWriteRecords (tag : Tag) (unbuffered : Bool) (lengths : List Nat) (s : State) : Answer :=
  mediumIn tag (.writeRecords unbuffered lengths) s

/-- WRITE_FILEMARKS. -/
def execWriteFilemarks (tag : Tag) (sync : Bool) (count : Nat) (s : State) : Answer :=
  mediumIn tag (.writeFilemarks sync count) s

/-- FLUSH. -/
def execFlush (tag : Tag) (s : State) : Answer := mediumIn tag .flush s

/-- READ_RECORDS. -/
def execReadRecords (tag : Tag) (length count : Nat) (s : State) : Answer := mediumIn tag (.readRecords length count) s

/-- SPACE. -/
def execSpace (tag : Tag) (kind : SpaceKind) (dir : Dir) (count : Nat) (imm : Bool) (s : State) : Answer :=
  mediumIn tag (.space kind dir count imm) s

/-- LOCATE. -/
def execLocate (tag : Tag) (target : Nat) (imm : Bool) (s : State) : Answer := mediumIn tag (.locate target imm) s

/-- REWIND. -/
def execRewind (tag : Tag) (imm : Bool) (s : State) : Answer := mediumIn tag (.rewind imm) s

/-- REBUILD_DIRECTORY. -/
def execRebuildDirectory (tag : Tag) (s : State) : Answer := mediumIn tag .rebuildDirectory s

/-- THREAD. -/
def execThread (tag : Tag) (s : State) : Answer := mediumIn tag .thread s

/-- UNTHREAD. -/
def execUnthread (tag : Tag) (force : Bool) (s : State) : Answer := mediumIn tag (.unthread force) s

/-- EJECT. -/
def execEject (tag : Tag) (s : State) : Answer := mediumIn tag .eject s

/-- DISCARD_BUFFER. -/
def execDiscardBuffer (tag : Tag) (s : State) : Answer := mediumIn tag .discardBuffer s

/-- QUEUE_HEAD_BEGINS: the command next in the queue reaches the head and begins (R171). -/
def execQueueHeadBegins (s : State) : Answer :=
  .next (match s.dlp.run.phase with
    | .notBegun => if s.dlp.queue.isEmpty then s else finish (beginHead s)
    | _ => s)

end Sys2Proof.Machine
end

