-- ==== Sys2Proof/Machine/Immediate.lean ====
section
/-! DEFINITION. The immediate commands of the Data Link (R170): reports, attributes, settings, events, Abort, custody, fault records and
Reset Drive. -/

namespace Sys2Proof.Machine

/-! ## Reports (R170) -/

/-- What Status returns (R170). -/
def statusReport (s : State) : StatusReport where
  condition := s.frg.condition
  cart := s.cah.state
  mode := s.cah.mode
  cleaningStep := s.cah.cleaningStep
  cleaningSection := if s.cah.cleaningStep.isSome then some s.cah.sect else none
  motion := s.moc.motion
  step := s.moc.step
  target := s.sgv.target
  cap := capOf s
  direction := s.dbf.direction
  slotCounts := slotCounts s
  readAheadActive := s.dbf.readAheadActive
  holder := s.cah.holder
  question := s.cah.question.map (fun q => q.requester)
  hci := s.hcm.hci
  level := s.hcm.level
  motionSeconds := s.hcm.motionSeconds
  cleaningCall := s.hcm.cleaningCall
  events := s.events

/-- STATUS: served in every drive condition. -/
def execStatus (tag : Tag) (s : State) : Answer :=
  immediate tag (fun _ => false) (fun s => reply tag ⟨.good, .status (statusReport s)⟩ s) s

/-- IDENTIFY: served in every drive condition. -/
def execIdentify (tag : Tag) (s : State) : Answer :=
  immediate tag (fun _ => false) (fun s => reply tag
    ⟨.good, .identity Config.vendorText Config.modelText Config.driveSerial Config.firmwareLevel s.lbp.address⟩ s) s

/-- READ_POSITION (R105, R118). -/
def execReadPosition (tag : Tag) (s : State) : Answer :=
  immediate tag notServed (fun s => reply tag
    ⟨.good, .positionReport s.fmc.position s.moc.wrap s.moc.lpos s.fmc.earlyWarning s.rch.lastImmediate⟩ s) s

/-- What Read Counters returns (R170 and the figures of R21, R37, R43, R85, R107, R123, R129, R153). -/
def counterReport (s : State) : CounterReport where
  accepted := s.fmc.accepted
  committed := s.fmc.committed
  discarded := s.fmc.discarded
  held := held s
  readSideDrops := s.dbf.readSideDrops
  compressionFaults := s.cpe.faults
  dataSetsCommitted := s.wch.dataSetsCommitted
  rewriteFrames := s.wch.rewriteFrames
  retries := s.wch.retries
  strays := s.wch.strays
  dataSetsRead := s.rch.dataSetsRead
  recovered := s.rch.recovered
  unrecovered := s.rch.unrecovered
  backhitches := s.moc.backhitches
  turnarounds := s.moc.turnarounds
  speedChanges := s.moc.speedChanges
  servoLosts := s.moc.servoLosts
  crs := s.sgv.crs
  hs := s.sgv.hs
  target := s.sgv.target
  pendingTarget := s.sgv.pendingTarget
  hci := s.hcm.hci
  level := s.hcm.level
  motionSeconds := s.hcm.motionSeconds
  cleaningCall := s.hcm.cleaningCall
  samples := s.hcm.samples
  linkErrors := s.dlp.linkErrors

/-- READ_COUNTERS. -/
def execReadCounters (tag : Tag) (s : State) : Answer :=
  immediate tag notServed (fun s => reply tag ⟨.good, .counters (counterReport s)⟩ s) s

/-- READ_FAULT_RECORD (R187). -/
def execReadFaultRecord (tag : Tag) (s : State) : Answer :=
  immediate tag notServed (fun s => reply tag
    ⟨.good, .faults (suspectOf (s.frg.current.getD [])) s.frg.current s.pst.history s.pst.statusGood⟩ s) s

/-! ## Attributes (R132, R164) -/

/-- A user slot named lies in 0..15, as the fields of the command must. -/
def attrFits : AttrName → Bool
  | .user n => decide (n < 16)
  | _ => true

/-- The contents of an attribute. -/
def attrValue (a : AttrName) (i : CmImage) : AttrValue :=
  match a with
  | .cartType => .cartType i.cartType
  | .level => .level i.level
  | .serial => .text i.serial
  | .loadCount => .number i.loadCount
  | .sessionOpen => .flag i.sessionOpen
  | .directory => .directory i.directory
  | .eod => .eod i.eod i.filemarks
  | .lastRatio => .ratio i.lastRatio
  | .history => .history i.history
  | .remainingUses => .number i.remainingUses
  | .user n => .user (i.user.getD n none)

/-- The refusals that Read Attribute and Write Attribute share (R132). -/
def attrRefusal (s : State) : Option Reason :=
  if s.cah.state = .empty ∨ s.cah.state = .seated then some .noCartridge
  else if s.cah.cmReadable = false then some .cmUnreadable
  else none

/-- READ_ATTRIBUTE. A slot outside 0..15 does not fit the command. -/
def execReadAttribute (tag : Tag) (a : AttrName) (s : State) : Answer :=
  if attrFits a then
    immediate tag notServed (fun s => match attrRefusal s, s.cah.image with
      | some r, _ => reply tag (senseReply r) s
      | none, some i => reply tag ⟨.good, .attribute_ (attrValue a i)⟩ s
      | none, none => reply tag (senseReply .cmUnreadable) s) s
  else immediate tag (fun _ => false) (fun s => reply tag (senseReply .badCommand) s) s

/-- A value of Write Attribute has 1 to 64 bytes, or is none (R132). -/
def attrValueFits : Option (List Byte) → Bool
  | none => true
  | some v => decide (1 ≤ v.length) && decide (v.length ≤ 64)

/-- A user slot of the image with a new value; the image holds 16 of them. -/
def setSlot (n : Nat) (v : Option (List Byte)) (l : List (Option (List Byte))) : List (Option (List Byte)) :=
  (l ++ List.replicate (16 - l.length) none).set n v

/-- Write Attribute carried out (R132, R164). -/
def writeAttr (tag : Tag) (a : AttrName) (v : Option (List Byte)) (s : State) : State :=
  match attrRefusal s with
  | some r => reply tag (senseReply r) s
  | none =>
    if cleaningCartridge s then reply tag (senseReply .cleaningCartridge) s
    else match a with
    | .user n =>
      reply tag goodReply { s with cah.image := s.cah.image.map (fun i => { i with user := setSlot n v i.user }) }
    | _ => reply tag (senseReply .badAttribute) s

/-- WRITE_ATTRIBUTE. A slot outside 0..15 or a value that is no 1 to 64 bytes does not fit the command. -/
def execWriteAttribute (tag : Tag) (a : AttrName) (v : Option (List Byte)) (s : State) : Answer :=
  if attrFits a ∧ attrValueFits v then immediate tag notServed (writeAttr tag a v) s
  else immediate tag (fun _ => false) (fun s => reply tag (senseReply .badCommand) s) s

/-! ## Settings (R57, R150, R185, R186) -/

/-- A setting's working copy after a Set Setting, with the value taken; none where the value or the setting is refused (R57,
R185). -/
def applySetting (name : SettingName) (v : Nat) (s : State) : Option (Nat × State) :=
  match name with
  | .readAheadLimit => some (min v 96, { s with dbf.readAheadLimit := min v 96 })
  | .compression => (switchOf v).map (fun b => (v, { s with cpe.switchOn := b }))
  | .autoThread => (switchOf v).map (fun b => (v, { s with pst.autoThread := b }))
  | .linkPolicy => (policyOf v).map (fun p => (v, { s with pst.linkPolicy := p }))
  | .linkPayloadDefault => (payloadOf v).map (fun n => (v, { s with pst.linkPayload := n }))
  | .driveAddressOverride => (overrideOf v).map (fun o => (v, { s with pst.addressOverride := o }))
  | .eventMask => if v < 2 ^ 25 then some (v, { s with events := withMaskValue v s.events }) else none
  | .libraryPolicy | .unknown => none

/-- Set Setting carried out; a changed Read-Ahead Limit acts at once (R57, R170). -/
def setSetting (tag : Tag) (name : SettingName) (v : Nat) (s : State) : State :=
  match applySetting name v s with
  | some (n, s') => reply tag ⟨.good, .value n⟩ s'
  | none => reply tag (senseReply .badValue) s

/-- SET_SETTING. -/
def execSetSetting (tag : Tag) (name : SettingName) (v : Nat) (s : State) : Answer :=
  match name with
  | .readAheadLimit => .next (finish (frameIn (commandIn tag notServed (setSetting tag name v)) s))
  | _ => immediate tag notServed (setSetting tag name v) s

/-- SAVE_SETTINGS: the reply is sent when the write has ended (R186). -/
def execSaveSettings (tag : Tag) (s : State) : Answer :=
  immediate tag notServed (fun s =>
    beginStoreWrite (.settings (some tag) (settingsContent s)) { s with dlp.tags := s.dlp.tags ++ [tag] }) s

/-- STORE_WRITE_DONE. -/
def execStoreWriteDone (ok : Bool) (s : State) : Answer := .next (sendNotices (storeWriteEnds ok s))

/-! ## Events (R176, R177) -/

/-- Set Event Mask carried out (R176). -/
def setMask (tag : Tag) (mask unmask : List Nat) (s : State) : State :=
  if (mask ++ unmask).all eventNumberOk then
    reply tag goodReply { s with
      events := changeEvents unmask EventFlags.unmask (changeEvents mask EventFlags.mask s.events) }
  else reply tag (senseReply .badValue) s

/-- SET_EVENT_MASK. -/
def execSetEventMask (tag : Tag) (mask unmask : List Nat) (s : State) : Answer :=
  immediate tag notServed (setMask tag mask unmask) s

/-- The numbers that a Clear Events names. -/
def clearedEvents : Option (List Nat) → List Nat
  | some l => l
  | none => (List.range 25).map (· + 1)

/-- Clear Events carried out (R177). -/
def clearNamed (tag : Tag) (named : Option (List Nat)) (s : State) : State :=
  if (clearedEvents named).all eventNumberOk then
    reply tag goodReply { s with events := changeEvents (clearedEvents named) EventFlags.clear s.events }
  else reply tag (senseReply .badValue) s

/-- CLEAR_EVENTS. -/
def execClearEvents (tag : Tag) (named : Option (List Nat)) (s : State) : Answer :=
  immediate tag notServed (clearNamed tag named) s

/-! ## Abort (R172) -/

/-- What an Abort's named tag is. -/
inductive AbortRow where
  | notFound
  | behind (q : QEntry)
  | head
  | inHand
  | tooLate
  | custody
deriving DecidableEq, Repr

/-- The first row of R172 that applies. -/
def abortRow (named : Tag) (s : State) : AbortRow :=
  if s.dlp.tags.contains named = false then .notFound
  else if s.cah.question.bind (fun q => q.tag) = some named then .custody
  else match s.dlp.queue with
  | [] => .tooLate
  | q :: rest =>
    if q.tag = named ∧ s.dlp.run.mute = false then
      (if s.dlp.run.aborting then .inHand else if runsOn s then .tooLate else .head)
    else match rest.find? (fun x => x.tag == named) with
    | some x => .behind x
    | none => .tooLate

/-- Abort carried out: its own reply goes first (R172). -/
def abortTag (tag named : Tag) (s : State) : State :=
  match abortRow named s with
  | .notFound => reply tag (senseReply .notFound) s
  | .tooLate => reply tag (senseReply .tooLate) s
  | .inHand => reply tag goodReply s
  | .head => abortHead (reply tag goodReply s)
  | .behind x =>
    let s := reply tag goodReply s
    abortQueued x 0 { s with dlp.queue := s.dlp.queue.take 1 ++ (s.dlp.queue.drop 1).filter (fun y => y.tag ≠ named) }
  | .custody =>
    let s := reply tag goodReply s
    dropTag named (reply named { outcome := .aborted }
      { s with cah.question := none, lbp.questionFlag := false })

/-- ABORT. -/
def execAbort (tag named : Tag) (s : State) : Answer :=
  .next (finish (frameIn (commandIn tag notServed (abortTag tag named)) s))

/-! ## Custody (R146 to R148) -/

/-- A Data Link Custody Request carried out (R147, R148). -/
def linkCustody (tag : Tag) (s : State) : State :=
  match custodyRuling .link s with
  | .held => reply tag goodReply s
  | .refused r => reply tag (senseReply r) s
  | .granted => reply tag goodReply (passCustody .link s)
  | .asked => postQuestion .link (some tag) { s with dlp.tags := s.dlp.tags ++ [tag] }

/-- CUSTODY_REQUEST. -/
def execCustodyRequest (tag : Tag) (s : State) : Answer := immediate tag notServed (linkCustody tag) s

/-- CUSTODY_ANSWER. -/
def execCustodyAnswer (tag : Tag) (grant : Bool) (s : State) : Answer :=
  immediate tag notServed (fun s => match answerRefusal .link s with
    | some r => reply tag (senseReply r) s
    | none => settleQuestion grant (reply tag goodReply s)) s

/-- RELEASE. -/
def execRelease (tag : Tag) (s : State) : Answer :=
  immediate tag notServed (fun s => match releaseRefusal .link s with
    | some r => reply tag (senseReply r) s
    | none => releaseCustody .link (reply tag goodReply s)) s

/-! ## Reset Drive (R170, R182, R183) -/

/-- Reset Drive is barred before the drive condition first becomes READY, unless a Drive Reset is in progress (R170, R182). -/
def resetBarred (s : State) : Bool := notServed s && s.frg.resetWork.isNone

/-- RESET_DRIVE: answered GOOD, and the Drive Reset then takes place. -/
def execResetDrive (tag : Tag) (s : State) : Answer :=
  .next (finish (frameIn (commandIn tag resetBarred (fun s => driveReset (reply tag goodReply s))) s))

/-! ## Timers of custody (R148, R149) -/

/-- CUSTODY_QUESTION_TIMEOUT. -/
def execCustodyQuestionTimeout (s : State) : Answer := .next (sendNotices (questionExpires s))

/-- GRACE_TIMEOUT. -/
def execGraceTimeout (s : State) : Answer := .next (sendNotices (graceExpires s))

end Sys2Proof.Machine
end

