-- ==== Sys2Proof/Machine/Library.lean ====
section
/-! DEFINITION. The library family of the table: the Poll, the orders and the custody records, the line and its break (R178 to R180), with
the tables of R136, R141 and R145 for orders from the Library Port. -/

namespace Sys2Proof.Machine

/-! ## The line (R178) -/

/-- A record addressed to the drive is taken while the port listens; one that arrives in another line state is ignored. -/
def recordIn (take : State → State) (s : State) : State := if s.lbp.line = .listening then take s else s

/-- The status record as the fields stand (R179). -/
def statusRecord (s : State) : LibStatus where
  address := s.lbp.address
  condition := s.frg.condition
  cart := s.cah.state
  mode := s.cah.mode
  level := s.hcm.level
  linkHolds := s.cah.holder == .link
  questionFlag := s.lbp.questionFlag
  cleaningCall := s.hcm.cleaningCall
  earlyWarning := s.fmc.earlyWarning

/-- POLL. -/
def execPoll (s : State) : Answer := .next (recordIn (fun s => answer (.status (statusRecord s)) s) s)

/-- LIBRARY_RECORD_IGNORED: no answer, and nothing changes. -/
def execLibraryRecordIgnored (s : State) : Answer := .next s

/-- A type that the library sends (section Layouts). -/
def libraryType (t : Byte) : Bool := t.toNat == 1 || (decide (4 ≤ t.toNat) && decide (t.toNat ≤ 11))

/-- LIBRARY_UNKNOWN_TYPE. -/
def execLibraryUnknownType (t : Byte) (s : State) : Answer :=
  .next (if libraryType t then s else recordIn (answerWith .badCommand none) s)

/-- LIBRARY_ANSWER_SENT: the answer has left, and the port listens again. While an order waits for negotiation there is none yet, and the
answer to a Drive Reset order has entered what is sent before (R171). -/
def execLibraryAnswerSent (s : State) : Answer :=
  .next (match s.lbp.line, s.lbp.answer with
    | .answering, some r => emit (.library r) { s with lbp.line := .listening, lbp.answer := none }
    | .answering, none => if s.lbp.waiting.isNone then { s with lbp.line := .listening } else s
    | _, _ => s)

/-- LIBRARY_LINE_BREAK: an answer partly sent is abandoned, and a question posted to the Library Port is refused. -/
def execLibraryLineBreak (s : State) : Answer :=
  .next (if s.lbp.line = .disabled then s
    else
      let s := { s with lbp.line := .inBreak, lbp.answer := none, lbp.waiting := none }
      let posted : Bool := match s.cah.question with | some q => q.requester == .link | none => false
      let s := if posted then settleQuestion false s else s
      sendNotices { s with lbp.questionFlag := false })

/-- BREAK_ENDS. -/
def execBreakEnds (s : State) : Answer :=
  .next (if s.lbp.line = .inBreak then { s with lbp.line := .listening } else s)

/-! ## Orders (R136, R141, R145, R180) -/

/-- An order's first rows: FAULTED, and every other drive condition but READY (R180, R183). DESIGN CHOICE: an Eject of a cleaning cartridge
that waits in NEGOTIATED is refused with the rest, by R145, R180 and R183, although R159 has its holder eject it while it waits
(assumption log 48). -/
def orderIn (take : State → State) (s : State) : State :=
  if s.frg.condition = .faulted then answerWith .driveFaulted none s
  else if s.frg.condition ≠ .ready then answerWith .becomingReady none s
  else take s

/-- A Thread from the Library Port (R136). -/
def libThread (s : State) : State :=
  match s.cah.state with
  | .empty => answerWith .noCartridge none s
  | .seated => { s with lbp.line := .answering, lbp.answer := none, lbp.waiting := some .thread }
  | .cleaning => answerWith .cleaningRuns none s
  | .threaded => answerGood s
  | .threading => answerGood s
  | .unthreading => answerWith .operationInHand none s
  | .ejecting => answerWith .operationInHand none s
  | .stuck => answerWith .driveFaulted none s
  | .negotiated | .held =>
    if cleaningCartridge s then answerWith .cleaningCartridge none s
    else if s.cah.mode = some .incompatible then answerWith .incompatibleMedium none s
    else if mediumWork s then answerWith .laterMediumWork none s
    else beginThread .library (answerGood s)

/-- An unthread ordered by the Library Port from THREADED, for itself or for an Eject (R141, R142, R145): a flush that it needs
is demanded, and it waits. DESIGN CHOICE: an order taken while another waits on its flush takes the place of that one, so that after an
Unthread taken behind a waiting Eject the cartridge stays HELD (assumption log 29). -/
def libUnthreadThreaded (kind : MediaKind) (s : State) : State :=
  if mediumWork s then answerWith .laterMediumWork none s
  else if s.wch.report.isSome ∨ s.wch.endOfMediumStop = true ∨ suspendedSlots s = true then
    answerWith .unwrittenData (some (held s)) s
  else
    let s := answerGood { s with cah.mediaOp := some { kind := kind, orderer := .library } }
    if writeSideEmpty s = false then demandFlush s
    else if writerBusy s then s
    else beginUnthread s

/-- An Unthread from the Library Port (R141). -/
def libUnthread (s : State) : State :=
  match s.cah.state with
  | .empty => answerWith .noCartridge none s
  | .cleaning => abortCleaning true (answerGood s)
  | .threading => abortThread (answerGood s)
  | .seated => answerGood s
  | .negotiated => answerGood s
  | .held => answerGood s
  | .unthreading => answerWith .operationInHand none s
  | .ejecting => answerWith .operationInHand none s
  | .stuck => answerWith .driveFaulted none s
  | .threaded => libUnthreadThreaded .unthread s

/-- An Eject from the Library Port (R145). -/
def libEject (s : State) : State :=
  if s.cah.holder ≠ .library then answerWith .noCustody none s
  else match s.cah.state with
  | .empty => answerWith .noCartridge none s
  | .cleaning => answerWith .cleaningRuns none s
  | .seated => { s with lbp.line := .answering, lbp.answer := none, lbp.waiting := some .eject }
  | .threading => answerWith .operationInHand none s
  | .unthreading => answerWith .operationInHand none s
  | .ejecting => answerWith .operationInHand none s
  | .stuck => answerWith .driveFaulted none s
  | .threaded => libUnthreadThreaded .eject s
  | .negotiated | .held => beginEject (answerGood { s with cah.mediaOp := some { kind := .eject, orderer := .library } })

/-- An order that waited for negotiation is answered when that has ended (R136, R145). -/
def settleLibraryWait (s : State) : State :=
  if s.cah.state = .seated then s
  else match s.lbp.waiting with
  | some .thread => orderIn libThread { s with lbp.waiting := none }
  | some .eject => orderIn libEject { s with lbp.waiting := none }
  | none => s

/-- LIBRARY_THREAD. -/
def execLibraryThread (s : State) : Answer := .next (finish (recordIn (orderIn libThread) s))

/-- LIBRARY_UNTHREAD. -/
def execLibraryUnthread (s : State) : Answer := .next (finish (recordIn (orderIn libUnthread) s))

/-- LIBRARY_EJECT. -/
def execLibraryEject (s : State) : Answer := .next (finish (recordIn (orderIn libEject) s))

/-- The Reply record with GOOD to a Drive Reset order: it is sent before the replies of the queue that the reset empties (R171). -/
def answerFirst (s : State) : State :=
  emit (.library (.reply s.lbp.address none none)) { s with lbp.line := .answering, lbp.answer := none }

/-- LIBRARY_DRIVE_RESET (R180, R182). -/
def execLibraryDriveReset (s : State) : Answer :=
  .next (finish (recordIn (fun s =>
    if resetBarred s then answerWith .becomingReady none s else driveReset (answerFirst s)) s))

/-! ## Custody records (R146 to R150) -/

/-- A Custody Request from the Library Port (R147, R148). -/
def libCustody (s : State) : State :=
  match custodyRuling .library s with
  | .held => answerGood s
  | .refused r => answerWith r none s
  | .granted => answerGood (passCustody .library s)
  | .asked => answerWith .questionPosted none (postQuestion .library none s)

/-- LIBRARY_CUSTODY_REQUEST. -/
def execLibraryCustodyRequest (s : State) : Answer := .next (sendNotices (recordIn libCustody s))

/-- The answer of the body byte: 1 grant, 2 refuse (section Layouts). -/
def grantOf (b : Byte) : Option Bool := if b.toNat = 1 then some true else if b.toNat = 2 then some false else none

/-- A Custody Answer from the Library Port (R148). -/
def libCustodyAnswer (body : Byte) (s : State) : State :=
  match grantOf body with
  | none => answerWith .badValue none s
  | some g =>
    match answerRefusal .library s with
    | some r => answerWith r none s
    | none => answerGood (settleQuestion g s)

/-- LIBRARY_CUSTODY_ANSWER. -/
def execLibraryCustodyAnswer (body : Byte) (s : State) : Answer :=
  .next (sendNotices (recordIn (libCustodyAnswer body) s))

/-- A Custody Release from the Library Port (R146). -/
def libRelease (s : State) : State :=
  match releaseRefusal .library s with
  | some r => answerWith r none s
  | none => answerGood (releaseCustody .library s)

/-- CUSTODY_RELEASE. -/
def execCustodyRelease (s : State) : Answer := .next (sendNotices (recordIn libRelease s))

/-- A Set Library Policy carried out (R150). -/
def libPolicy (body : Byte) (s : State) : State :=
  match policyOf body.toNat with
  | some p => answerGood { s with pst.libraryPolicy := p }
  | none => answerWith .badValue none s

/-- SET_LIBRARY_POLICY. -/
def execSetLibraryPolicy (body : Byte) (s : State) : Answer := .next (recordIn (libPolicy body) s)

end Sys2Proof.Machine
end

