-- ==== Sys2Proof/Machine/Cartridge.lean ====
section
/-! DEFINITION. The cartridge family of the table (R131 to R145, R160 to R163). -/

namespace Sys2Proof.Machine

/-- CARTRIDGE_INSERTED: a cartridge is drawn in where none stands (R131). -/
def execCartridgeInserted (c : Cartridge) (s : State) : Answer :=
  .next (if s.cah.state = .empty then finish (seat c s) else s)

/-- CM_READ_ATTEMPT_DONE (R131, R133). -/
def execCmReadAttemptDone (ok : Bool) (s : State) : Answer := .next (finish (settleLibraryWait (cmReadEnds ok s)))

/-- STAGE_PUSH_DONE (R135, R137). -/
def execStagePushDone (s : State) : Answer := .next (finish (stagePushed s))

/-- STAGE_ATTEMPT_TIMEOUT (R135, R138). -/
def execStageAttemptTimeout (s : State) : Answer := .next (finish (stageTimedOut s))

/-- STAGE_POP_DONE (R135, R138, R142). -/
def execStagePopDone (s : State) : Answer := .next (finish (stagePopped s))

/-- STAGE_POP_FAILED (R139). -/
def execStagePopFailed (s : State) : Answer := .next (finish (stagePopFailed s))

/-- SESSION_OPEN_WRITE_DONE (R140). -/
def execSessionOpenWriteDone (ok : Bool) (s : State) : Answer := .next (finish (sessionOpenEnds ok s))

/-- CM_WRITE_BACK_DONE (R143). -/
def execCmWriteBackDone (ok : Bool) (s : State) : Answer := .next (finish (writeBackEnds ok s))

/-- EJECT_PUSH_DONE (R145). -/
def execEjectPushDone (s : State) : Answer := .next (if s.cah.pushing then finish (ejectDone s) else s)

/-- EJECT_PUSH_TIMEOUT (R139, R145). -/
def execEjectPushTimeout (s : State) : Answer := .next (if s.cah.pushing then finish (becomeStuck .ejectFailed s) else s)

/-- USE_DECREMENT_DONE (R160). -/
def execUseDecrementDone (ok : Bool) (s : State) : Answer := .next (finish (decrementEnds ok s))

/-- CLEANING_RUN_DONE (R161). -/
def execCleaningRunDone (s : State) : Answer := .next (finish (cleaningRunEnds s))

end Sys2Proof.Machine
end

