-- ==== Sys2Proof/Machine/Tape.lean ====
section
/-! DEFINITION. The motion and data families of the table (R29, R38, R64, R88, R97, R108 to R121). -/

namespace Sys2Proof.Machine

/-! ## Motion (R108 to R121) -/

/-- REST_TIMER_EXPIRY (R109). -/
def execRestTimerExpiry (s : State) : Answer := .next (restExpires s)

/-- RETENSION_DONE (R109). -/
def execRetensionDone (s : State) : Answer := .next (finish (retensionEnds s))

/-- TENSION_TIMEOUT (R109, R184). -/
def execTensionTimeout (s : State) : Answer := .next (finish (tensionFails s))

/-- RAMP_DONE (R110). -/
def execRampDone (lpos : Nat) (s : State) : Answer := .next (finish (rampEnds lpos s))

/-- BACKHITCH_DONE (R115). -/
def execBackhitchDone (lpos : Nat) (s : State) : Answer := .next (finish (backhitchEnds lpos s))

/-- SEEK_DONE (R116). -/
def execSeekDone (lpos : Nat) (s : State) : Answer := .next (finish (seekEnds lpos s))

/-- TURNAROUND_DONE (R117). -/
def execTurnaroundDone (lpos : Nat) (s : State) : Answer := .next (finish (turnaroundEnds lpos s))

/-- OPERATION_OVERRUN (R121). -/
def execOperationOverrun (s : State) : Answer := .next (finish (operationOverruns s))

/-- SERVO_MARK (R118, R120). -/
def execServoMark (wrap lpos : Nat) (s : State) : Answer := .next (finish (markRead wrap lpos s))

/-- SERVO_LOST (R119 to R121). -/
def execServoLost (s : State) : Answer := .next (finish (servoIsLost s))

/-- MOTION_SECOND (R108, R154). -/
def execMotionSecond (s : State) : Answer := .next (sendNotices (secondOfMotion s))

/-! ## Data (R29, R38, R64, R88, R91, R97, R16) -/

/-- PACK_RECORD_PART (R29). -/
def execPackRecordPart (agrees : Bool) (s : State) : Answer := .next (finish (packStep agrees s))

/-- The write head passes a frame place while the writer writes. -/
def writingNow (s : State) : Bool :=
  s.wch.writer == .writing && s.moc.motion == .streaming && s.moc.operation.isNone

/-- One frame place of the writer (R64); a data set taken from its slot has its payload checked first (R187). -/
def framePlace (slotGood : Bool) (s : State) : State :=
  if writingNow s = false then s
  else if takesSlot s = true ∧ slotGood = false then bufferFault .payloadCheck s
  else frameStep s

/-- FRAME_PLACE (R64). -/
def execFramePlace (slotGood : Bool) (s : State) : Answer := .next (finish (framePlace slotGood s))

/-- The read head passes the oldest listed place in VERIFY (R88). -/
def verifyFrame (found : Found) (s : State) : State :=
  match s.rch.trail with
  | [] => s
  | (_, tag) :: rest => takeVerdict tag (verdictGood tag found) { s with rch.trail := rest }

/-- VERIFY_FRAME_PASSED (R88). -/
def execVerifyFramePassed (found : Found) (s : State) : Answer := .next (finish (verifyFrame found s))

/-- READ_FRAME_PASSED (R91, R96). -/
def execReadFramePassed (lpos : Nat) (found : Found) (s : State) : Answer := .next (finish (readBoundary lpos found s))

/-- The check decode of the DRAINING slot ends (R38); a payload check that failed freezes the drive (R187). -/
def decodeEnds (slotGood : Bool) (s : State) : State :=
  if (drainingSlot s).isNone ∨ s.cpe.checked = true then s
  else if slotGood = false then bufferFault .payloadCheck s
  else checkDecode s

/-- CHECK_DECODE_DONE (R38). -/
def execCheckDecodeDone (slotGood : Bool) (s : State) : Answer := .next (finish (decodeEnds slotGood s))

/-- HEADER_SCAN_FRAME (R97). -/
def execHeaderScanFrame (lpos : Nat) (found : Found) (s : State) : Answer := .next (finish (scanBoundary lpos found s))

/-- REBUILD_FRAME (R16, R17). -/
def execRebuildFrame (lpos : Nat) (found : Found) (s : State) : Answer := .next (finish (rebuildBoundary lpos found s))

end Sys2Proof.Machine
end

