-- ==== Sys2Proof/Machine/Dispatch.lean ====
section
/-! DEFINITION. One arm per command: each calls its meaning. -/

namespace Sys2Proof.Machine

def exec (i : Instr) (s : State) : Host.Outcome State Fault Refusal :=
  match i with
  | .powerOn jumpers => Sys2Proof.Machine.execPowerOn jumpers s
  | .resetLine jumpers => Sys2Proof.Machine.execResetLine jumpers s
  | .bufferMemoryTestDone passed stages => Sys2Proof.Machine.execBufferMemoryTestDone passed stages s
  | .lineSignalAppears => Sys2Proof.Machine.execLineSignalAppears s
  | .lineSignalLost => Sys2Proof.Machine.execLineSignalLost s
  | .hello maxPayload => Sys2Proof.Machine.execHello maxPayload s
  | .helloTimeout => Sys2Proof.Machine.execHelloTimeout s
  | .badCheckFrame => Sys2Proof.Machine.execBadCheckFrame s
  | .frameRejected => Sys2Proof.Machine.execFrameRejected s
  | .dataOut tag payload => Sys2Proof.Machine.execDataOut tag payload s
  | .receiveCredit count => Sys2Proof.Machine.execReceiveCredit count s
  | .dataInSend => Sys2Proof.Machine.execDataInSend s
  | .unknownCommand tag => Sys2Proof.Machine.execUnknownCommand tag s
  | .status tag => Sys2Proof.Machine.execStatus tag s
  | .identify tag => Sys2Proof.Machine.execIdentify tag s
  | .readPosition tag => Sys2Proof.Machine.execReadPosition tag s
  | .readCounters tag => Sys2Proof.Machine.execReadCounters tag s
  | .readAttribute tag name => Sys2Proof.Machine.execReadAttribute tag name s
  | .writeAttribute tag name value => Sys2Proof.Machine.execWriteAttribute tag name value s
  | .setSetting tag name value => Sys2Proof.Machine.execSetSetting tag name value s
  | .saveSettings tag => Sys2Proof.Machine.execSaveSettings tag s
  | .storeWriteDone ok => Sys2Proof.Machine.execStoreWriteDone ok s
  | .setEventMask tag mask unmask => Sys2Proof.Machine.execSetEventMask tag mask unmask s
  | .clearEvents tag events => Sys2Proof.Machine.execClearEvents tag events s
  | .abort tag named => Sys2Proof.Machine.execAbort tag named s
  | .custodyRequest tag => Sys2Proof.Machine.execCustodyRequest tag s
  | .custodyAnswer tag grant => Sys2Proof.Machine.execCustodyAnswer tag grant s
  | .release tag => Sys2Proof.Machine.execRelease tag s
  | .readFaultRecord tag => Sys2Proof.Machine.execReadFaultRecord tag s
  | .resetDrive tag => Sys2Proof.Machine.execResetDrive tag s
  | .writeRecords tag unbuffered lengths => Sys2Proof.Machine.execWriteRecords tag unbuffered lengths s
  | .writeFilemarks tag sync count => Sys2Proof.Machine.execWriteFilemarks tag sync count s
  | .flush tag => Sys2Proof.Machine.execFlush tag s
  | .readRecords tag length count => Sys2Proof.Machine.execReadRecords tag length count s
  | .space tag kind dir count imm => Sys2Proof.Machine.execSpace tag kind dir count imm s
  | .locate tag target imm => Sys2Proof.Machine.execLocate tag target imm s
  | .rewind tag imm => Sys2Proof.Machine.execRewind tag imm s
  | .rebuildDirectory tag => Sys2Proof.Machine.execRebuildDirectory tag s
  | .thread tag => Sys2Proof.Machine.execThread tag s
  | .unthread tag force => Sys2Proof.Machine.execUnthread tag force s
  | .eject tag => Sys2Proof.Machine.execEject tag s
  | .discardBuffer tag => Sys2Proof.Machine.execDiscardBuffer tag s
  | .queueHeadBegins => Sys2Proof.Machine.execQueueHeadBegins s
  | .poll => Sys2Proof.Machine.execPoll s
  | .libraryThread => Sys2Proof.Machine.execLibraryThread s
  | .libraryUnthread => Sys2Proof.Machine.execLibraryUnthread s
  | .libraryEject => Sys2Proof.Machine.execLibraryEject s
  | .libraryDriveReset => Sys2Proof.Machine.execLibraryDriveReset s
  | .libraryCustodyRequest => Sys2Proof.Machine.execLibraryCustodyRequest s
  | .libraryCustodyAnswer body => Sys2Proof.Machine.execLibraryCustodyAnswer body s
  | .custodyRelease => Sys2Proof.Machine.execCustodyRelease s
  | .setLibraryPolicy body => Sys2Proof.Machine.execSetLibraryPolicy body s
  | .libraryRecordIgnored => Sys2Proof.Machine.execLibraryRecordIgnored s
  | .libraryUnknownType type => Sys2Proof.Machine.execLibraryUnknownType type s
  | .libraryLineBreak => Sys2Proof.Machine.execLibraryLineBreak s
  | .breakEnds => Sys2Proof.Machine.execBreakEnds s
  | .custodyQuestionTimeout => Sys2Proof.Machine.execCustodyQuestionTimeout s
  | .graceTimeout => Sys2Proof.Machine.execGraceTimeout s
  | .cartridgeInserted c => Sys2Proof.Machine.execCartridgeInserted c s
  | .cmReadAttemptDone ok => Sys2Proof.Machine.execCmReadAttemptDone ok s
  | .stagePushDone => Sys2Proof.Machine.execStagePushDone s
  | .stageAttemptTimeout => Sys2Proof.Machine.execStageAttemptTimeout s
  | .stagePopDone => Sys2Proof.Machine.execStagePopDone s
  | .stagePopFailed => Sys2Proof.Machine.execStagePopFailed s
  | .sessionOpenWriteDone ok => Sys2Proof.Machine.execSessionOpenWriteDone ok s
  | .cmWriteBackDone ok => Sys2Proof.Machine.execCmWriteBackDone ok s
  | .ejectPushDone => Sys2Proof.Machine.execEjectPushDone s
  | .ejectPushTimeout => Sys2Proof.Machine.execEjectPushTimeout s
  | .useDecrementDone ok => Sys2Proof.Machine.execUseDecrementDone ok s
  | .cleaningRunDone => Sys2Proof.Machine.execCleaningRunDone s
  | .restTimerExpiry => Sys2Proof.Machine.execRestTimerExpiry s
  | .retensionDone => Sys2Proof.Machine.execRetensionDone s
  | .tensionTimeout => Sys2Proof.Machine.execTensionTimeout s
  | .rampDone lpos => Sys2Proof.Machine.execRampDone lpos s
  | .backhitchDone lpos => Sys2Proof.Machine.execBackhitchDone lpos s
  | .seekDone lpos => Sys2Proof.Machine.execSeekDone lpos s
  | .turnaroundDone lpos => Sys2Proof.Machine.execTurnaroundDone lpos s
  | .operationOverrun => Sys2Proof.Machine.execOperationOverrun s
  | .servoMark wrap lpos => Sys2Proof.Machine.execServoMark wrap lpos s
  | .servoLost => Sys2Proof.Machine.execServoLost s
  | .motionSecond => Sys2Proof.Machine.execMotionSecond s
  | .packRecordPart shadowAgrees => Sys2Proof.Machine.execPackRecordPart shadowAgrees s
  | .framePlace slotGood => Sys2Proof.Machine.execFramePlace slotGood s
  | .verifyFramePassed found => Sys2Proof.Machine.execVerifyFramePassed found s
  | .readFramePassed lpos found => Sys2Proof.Machine.execReadFramePassed lpos found s
  | .checkDecodeDone slotGood => Sys2Proof.Machine.execCheckDecodeDone slotGood s
  | .headerScanFrame lpos found => Sys2Proof.Machine.execHeaderScanFrame lpos found s
  | .rebuildFrame lpos found => Sys2Proof.Machine.execRebuildFrame lpos found s
  | .libraryAnswerSent => Sys2Proof.Machine.execLibraryAnswerSent s
  | .resetLineAsserted => Sys2Proof.Machine.execResetLineAsserted s

end Sys2Proof.Machine
end

