-- ==== Sys2Proof/Machine/Step.lean ====
section
/-! DEFINITION. One step: the command at the front of the queue, or, where none waits, one microsecond of the drive's clock
(assumption log 1). -/

namespace Sys2Proof.Machine

/-- `n` counted up by one where a condition holds. -/
def countIf (b : Bool) (n : Nat) : Nat := if b then n + 1 else n

/-- The host has bytes to send and no credit to send them with (R52). -/
def heldNow (s : State) : Bool := receivesAny s && s.dlp.creditsOut == 0

/-- A Read Records is executing and no slot is READY or DRAINING (R53). -/
def starvedNow (s : State) : Bool :=
  readInHand s && s.dbf.readRing.all (fun d => d.state != .ready && d.state != .draining)

/-- The Motion Controller a microsecond later: its times rise (R108, R109, R110, R119), and the LPOS goes on between marks, which may begin
a seek's ramp down (R116, R118). -/
def motionAfter (s : State) : Moc :=
  (settleSeek (interpolate { s with
    moc.motionTime := countIf s.moc.motion.moving s.moc.motionTime
    moc.restTimer := countIf (s.moc.motion == .stopped) s.moc.restTimer
    moc.watch := countIf (servoArmed s) s.moc.watch
    moc.phaseTime := countIf s.moc.operation.isSome s.moc.phaseTime })).moc

/-- One microsecond passes: the time base and the timers that run rise (R52, R53, R135, R148, R149, R167, R187), the
Motion Controller's with them. What a timer's end brings is a command of its own. -/
def tick (s : State) : State :=
  { s with
    timeBase := s.timeBase + 1
    dlp.helloTimer := countIf (s.dlp.link == .awaitingHello) s.dlp.helloTimer
    dlp.heldTime := countIf (heldNow s) s.dlp.heldTime
    dbf.starvedTime := countIf (starvedNow s) s.dbf.starvedTime
    moc := motionAfter s
    cah.question := s.cah.question.map (fun q => { q with timer := q.timer + 1 })
    cah.grace := s.cah.grace.map (· + 1)
    cah.stageWork := s.cah.stageWork.map (fun w => { w with timer := w.timer + 1 }) }

/-- One step of the drive: the command at the front of the queue acts on the drive with the queue's rest. -/
def step (s : State) : Host.Outcome State Fault Refusal :=
  match s.pending with
  | c :: rest => exec c { s with pending := rest }
  | [] => .next (tick s)

/-- The command that a word spells is put at the front of the queue; where the word spells none, nothing changes. -/
def State.withFetchWord (s : State) (nbits w : Nat) : State :=
  match decodeTableWord nbits w with
  | some c => { s with pending := c :: s.pending }
  | none => s

end Sys2Proof.Machine
end

