-- ==== Sys2Proof/Safety.lean ====
section
/-! DEFINITION. What a sound state of the drive is (the ranges and relations that the rules give its registers in every state), and the
states in which statements speak of one command alone: a drive at rest, a link that is up, a command whose answer is owed. -/

namespace Sys2Proof.Machine

/-! ## Soundness -/

/-- One event's flags (R175, R176): the count is at least 1 while the event is latched, and 0 while it is not; it stops at 255; a
notice is pending only for a latched event. -/
def EventFlags.Sound (f : EventFlags) : Prop :=
  f.count ≤ 255 ∧ (f.latched = true ↔ 0 < f.count) ∧ (f.pending = true → f.latched = true)

/-- The Event Set has its 25 events (R175). -/
def EventsSound (es : List EventFlags) : Prop := es.length = 25 ∧ ∀ f ∈ es, f.Sound

/-- The head condition (R153 to R156): the HCI lies in 0..1000, the Condition Level is at least the one that HCI and Motion Seconds
give, the Cleaning Call is set while the level is not NORMAL, and the condition cap is the level's. -/
def HeadSound (h : Hcm) (conditionCap : Nat) : Prop :=
  h.hci ≤ 1000 ∧ (levelOf h.hci h.motionSeconds).rank ≤ h.level.rank ∧ (h.cleaningCall = true ↔ h.level ≠ .normal)
    ∧ conditionCap = levelCap h.level

/-- The governor (R122, R124, R125): CRs lies in 256..8192, Hs is at most 320,000 kB/s, and the Target Step is a step no higher than the
cap. -/
def GovernorSound (g : Sgv) (formatCap conditionCap : Nat) : Prop :=
  256 ≤ g.crs ∧ g.crs ≤ 8192 ∧ (∀ h, g.hs = some h → h ≤ 320000) ∧ 4 ≤ formatCap ∧ 1 ≤ g.target
    ∧ g.target ≤ min 6 (min formatCap conditionCap)

/-- A fault record lists at most 4 faults (R187). -/
def RecordSound (r : Option (List FaultEntry)) : Prop := ∀ l, r = some l → l.length ≤ 4

/-- Soundness, over the parts of a state it speaks of: the 32 staging buffers cover the filled ones and the credits (R50, R51); receive
credits, the run of bad checks, the Read-Ahead Limit, the frame tag and the Medium Queue keep their ranges (R57, R64, R166, R169, R171). -/
structure SoundOf (es : List EventFlags) (h : Hcm) (headCap : Nat) (g : Sgv) (formatCap conditionCap staged creditsOut
    receiveCredits crcRun limit nextTag : Nat) (q : List QEntry) (r : Option (List FaultEntry)) : Prop where
  events : EventsSound es
  head : HeadSound h headCap
  governor : GovernorSound g formatCap conditionCap
  room : creditsOut + staged ≤ 32
  receive : receiveCredits ≤ 1024
  checks : crcRun < 8
  limit : limit ≤ 96
  tag : nextTag < 32
  queue : q.length ≤ 16
  record : RecordSound r

/-- A sound state of the drive. -/
abbrev Sound (s : State) : Prop :=
  SoundOf s.events s.hcm s.moc.conditionCap s.sgv s.moc.formatCap s.moc.conditionCap s.dbf.staging.length s.dlp.creditsOut
    s.dlp.receiveCredits s.dlp.crcRun s.dbf.readAheadLimit s.wch.nextTag s.dlp.queue s.frg.current

/-! ## Frames and commands taken -/

/-- A COMMAND frame with this tag is taken in READY: the link is UP and the tag is not outstanding (R170, R171). -/
abbrev Open (tag : Tag) (s : State) : Prop :=
  s.dlp.link = .up ∧ s.dlp.tags.contains tag = false ∧ s.frg.condition = .ready

/-- A frame that passes the framing test has been heard: the run of bad checks is over (R166). -/
def heard (s : State) : State := { s with dlp.crcRun := 0 }

/-- A reply goes out to a command just heard, and nothing else of the drive changes. -/
def replied (tag : Tag) (r : Reply) (s : State) : State := emit (.reply tag r) (heard s)

/-- A medium command that arrives finds the Medium Queue empty, and the Library Port has no media operation in hand: it begins at once
(R136, R171). -/
abbrev HeadFree (tag : Tag) (s : State) : Prop :=
  Open tag s ∧ s.dlp.queue = [] ∧ s.dlp.run = {} ∧ libraryOperation s = false

/-- It finds a threaded tape, and no failure that a reply has still to carry (R79, R99). -/
abbrev Served (tag : Tag) (s : State) : Prop := HeadFree tag s ∧ s.cah.state = .threaded ∧ s.wch.report = none

/-- The command at the head of the Medium Queue that it has just joined. -/
def taken (tag : Tag) (c : MedCmd) (s : State) : State :=
  { heard s with dlp.queue := [⟨tag, c⟩], dlp.tags := s.dlp.tags ++ [tag] }

/-- The commands that the tests of R79 and R82 are made for. -/
def writesTape : MedCmd → Bool
  | .writeRecords _ _ => true
  | .writeFilemarks _ _ => true
  | _ => false

/-- The commands that the tests of R99 are made for. -/
def readsTape : MedCmd → Bool
  | .readRecords _ _ => true
  | .space _ _ _ _ => true
  | .locate _ _ => true
  | .rewind _ => true
  | .rebuildDirectory => true
  | _ => false

/-- A medium command that begins at once is answered at once: its reply goes out, and the queue is empty again. -/
def answered (tag : Tag) (c : MedCmd) (o : OutcomeBlock) (s : State) : State := replied tag ⟨o, resultsOf c 0 s⟩ s

/-- An order of the Library Port is taken in READY: the port listens (R178, R180). -/
abbrev OrderTaken (s : State) : Prop := s.lbp.line = .listening ∧ s.frg.condition = .ready

/-! ## A drive with nothing to take up -/

/-- No filemark waits at the head of what waits for the engine. -/
def noFilemarkNext (s : State) : Bool :=
  match s.cpe.intake with
  | .filemark _ :: _ => false
  | _ => true

/-- The phases in which the command at the head waits for an event of its own, or has nothing to wait for. -/
def waitsForEvent (s : State) : Bool :=
  match s.dlp.run.phase with
  | .notBegun | .appendScan | .searching | .moving | .threading | .unthreading | .ejecting => true
  | .receiving => !s.dlp.run.lengths.isEmpty
  | .rebuilding => s.rch.rebuild.isSome
  | .waitTape => writerBusy s
  | _ => false

/-- Nothing that follows a step has anything to do: the engine's state is the one its work gives (R23); the writer is neither due to
start nor due to go idle (R54, R55), and VERIFY has not ended (R87); no flush is in hand (R55); the reader neither begins nor ends a data
set (R56, R92) and has the tape it needs (R112, R114); the buffer's direction stands (R47); no media operation, reset or command at the
head waits for something that has come about (R142, R171, R183). -/
structure Calm (s : State) : Prop where
  engine : s.cpe.engine = .unpacking ∨ engineBlocked s = true ∨ slotWaits s = true ∨
    (s.cpe.engine ≠ .slotWait ∧ s.cpe.closeAfter = none ∧ noFilemarkNext s = true ∧
      s.cpe.engine = if engineWork s then .packing else .idle)
  start : s.wch.writer = .idle → (startCondition s && startAllowed s) = false
  starting : s.wch.writer ≠ .starting
  writing : s.wch.writer = .writing → s.wch.wrapPhase = .open_ ∧
    (s.wch.eodPlan ≠ none ∨ s.dbf.writeRing.all (fun d => d.state == .filling) = false)
  verify : s.rch.duty = .verify → s.rch.trail ≠ [] ∨ (s.wch.writer ≠ .idle ∧ s.wch.writer ≠ .suspended)
  flush : s.dbf.flush = false
  help : s.rch.duty = .idle → s.rch.collectFor ≠ .scanHelp ∧ s.rch.collectFor ≠ .rebuildHeader ∧ s.rch.collectFor ≠ .rebuildTail
  ahead : s.dbf.readAheadActive = true → (readingSlot s).isSome = true
  current : s.rch.current.all (fun c => decide (c.held.length < 33)) = true
  collecting : s.rch.duty = .collect ∨ s.rch.duty = .recover → collectingInHand s = true
  streaming : s.moc.motion = .streaming → s.moc.operation = none → (s.moc.work = .collecting ∨ s.moc.work = .scanning
    ∨ s.moc.work = .rebuilding) → s.rch.duty = .collect ∨ s.rch.duty = .recover ∨ (s.rch.duty = .scan ∧ s.moc.work ≠ .collecting)
  write : s.dbf.direction = .write → (writeSideEmpty s && !writeExecuting s) = false
  read : s.dbf.direction = .read → s.dbf.readRing ≠ []
  media : s.cah.state = .threaded → s.cah.mediaOp = none
  reset : s.frg.resetWork = none
  head : waitsForEvent s = true

end Sys2Proof.Machine
end

