-- ==== Sys2Proof/Certificates/Slice0/Obligations.lean ====
section
/-! DEFINITION. The statements for the provers, each a Prop about the model: what a command or event does, in the order of the blocks.
`finish` is what follows every step; `CalmStateOnlySendsNotices` says when that is nothing but the Event notice. A docstring names the
rules; where a statement rests on a choice of the model it names the assumption log's entry. -/

open Sys2Proof Sys2Proof.Machine

/-- For every command c, every rest of the queue and every state s whose queue is c followed by that rest, step of s is exec of c on
s with the queue's rest. (00_scope.md.) -/
def Obligations.StepRunsFrontCommand : Prop :=
  ∀ (c : Instr) (rest : List Instr) (s : State), s.pending = c :: rest → step s = exec c { s with pending := rest }

/-- On an empty queue a step answers a next state in which the time base has risen by one; the Hello timer has risen by one in
AWAITING HELLO, Held Time while the host has bytes to send and no credit, Starved Time while a Read Records is executing or
waits on its flush with no slot READY or DRAINING, the motion time while the tape moves, the rest timer in STOPPED and a running
grace timer; in STREAMING and in RAMPING the LPOS moves by the current step's speed in the direction of travel, in whole
hundredths of a millimetre with the rest carried; the run to BOT of a recovery begins its ramp down where its aim is near
enough, and no other motion changes outside a seek; outside a seek and that run the time of the phase in hand rises while an
operation runs; nothing is sent and every other block named here is as before. That an idle step is one microsecond is the
model's choice (log entry 1), and so are the LPOS in a ramp and from how near the recovery's run ramps down (log entry 22);
which timers run is the spec's. (00_scope.md, R52, R53, R108, R109, R110, R111, R118, R119, R149, R167; the model's choices: log
1 and 22.) -/
def Obligations.IdleStepIsOneMicrosecond : Prop :=
  ∀ s : State, s.pending = [] → ∃ t, step s = .next t ∧ t.timeBase = s.timeBase + 1
    ∧ (t.dlp.helloTimer = if s.dlp.link = .awaitingHello then s.dlp.helloTimer + 1 else s.dlp.helloTimer)
    ∧ (t.dlp.heldTime = if receivesAny s = true ∧ s.dlp.creditsOut = 0 then s.dlp.heldTime + 1 else s.dlp.heldTime)
    ∧ (t.moc.motionTime = if s.moc.motion.moving then s.moc.motionTime + 1 else s.moc.motionTime)
    ∧ (t.moc.restTimer = if s.moc.motion = .stopped then s.moc.restTimer + 1 else s.moc.restTimer)
    ∧ t.cah.grace = s.cah.grace.map (· + 1)
    ∧ t.pending = [] ∧ t.out = s.out ∧ t.lbp = s.lbp ∧ t.events = s.events ∧ t.cpe = s.cpe ∧ t.fmc = s.fmc ∧ t.wch = s.wch
    ∧ t.rch = s.rch ∧ t.sgv = s.sgv ∧ t.hcm = s.hcm ∧ t.pst = s.pst ∧ t.frg = s.frg ∧ t.jumpers = s.jumpers
    ∧ t.dlp.queue = s.dlp.queue ∧ t.dlp.tags = s.dlp.tags ∧ t.dbf.writeRing = s.dbf.writeRing ∧ t.dbf.readRing = s.dbf.readRing
    ∧ t.dbf.staging = s.dbf.staging ∧ t.moc.operation = s.moc.operation
    ∧ ((s.dlp.run.phase = .reading ∨ s.dlp.run.phase = .waitFlush ∧ ∃ tag l n, s.dlp.queue.head? = some ⟨tag, .readRecords l n⟩) →
        (∀ d ∈ s.dbf.readRing, d.state ≠ .ready ∧ d.state ≠ .draining) → t.dbf.starvedTime = s.dbf.starvedTime + 1)
    ∧ ((s.dlp.run.phase ≠ .reading ∧ s.dlp.run.phase ≠ .waitFlush) ∨ (∃ d ∈ s.dbf.readRing, d.state = .ready ∨ d.state = .draining) →
        t.dbf.starvedTime = s.dbf.starvedTime)
    ∧ (s.moc.motion ≠ .streaming → s.moc.motion ≠ .seeking → s.moc.motion ≠ .ramping →
        t.moc.motion = s.moc.motion ∧ t.moc.lpos = s.moc.lpos)
    ∧ (s.moc.motion = .streaming ∨ s.moc.motion = .ramping →
        (runningPhase s ≠ some .slowRun → t.moc.motion = s.moc.motion)
        ∧ t.moc.drift = (s.moc.drift + tapeSpeed s.moc.step) % 10000
        ∧ t.moc.lpos = s.moc.lpos.map (fun l => if s.moc.towardHigh
            then min 98000000 (l + (s.moc.drift + tapeSpeed s.moc.step) / 10000)
            else l - (s.moc.drift + tapeSpeed s.moc.step) / 10000))
    ∧ (∀ (w : Work) (p : Place) (rest : List Phase) (r : Bool), s.moc.operation = some ⟨w, some p, .slowRun :: rest, r⟩ →
        s.moc.motion = .streaming →
        (t.moc.motion = .ramping ↔
            ∃ l, t.moc.lpos = some l ∧ l ≤ p.lpos + Config.slowRunReach ∧ p.lpos ≤ l + Config.slowRunReach)
        ∧ (t.moc.motion ≠ .ramping → t.moc.motion = .streaming))
    ∧ (s.moc.motion ≠ .seeking → runningPhase s ≠ some .slowRun → t.moc.phaseTime = if s.moc.operation.isSome then s.moc.phaseTime + 1 else s.moc.phaseTime)
    ∧ t.cah.state = s.cah.state ∧ t.cah.stack = s.cah.stack ∧ t.cah.holder = s.cah.holder

/-- For every state s that is Sound, if step of s answers a next state t, then t is Sound. Sound says: the Event Set has 25 events,
each with a count of at most 255 that is above 0 exactly while the event is latched, and a notice pending only for a latched
event; the HCI is at most 1000, the Condition Level is at least what HCI and Motion Seconds give, the Cleaning Call is set
exactly when the level is not NORMAL, and the condition cap is the level's; CRs lies in 256..8192, Hs is at most 320,000, and
the Target Step is a step no higher than the speed cap; Credits Outstanding and the filled staging buffers are together at most
32; receive credits are at most 1,024; CRC Run is below 8; the Read-Ahead Limit is at most 96; the next frame tag is below 32;
the Medium Queue holds at most 16 commands; a fault record lists at most 4 faults. It is stated over all sound states, not over
runs from reset. (R51, R57, R64, R122, R125, R153, R155, R166, R169, R171, R175, R187.) -/
def Obligations.StepKeepsSound : Prop := ∀ s t : State, Sound s → step s = .next t → Sound t

/-- State.reset meets Sound, the invariant of StepKeepsSound. (R151, R182, R175, R122, R153.) -/
def Obligations.ResetIsSound : Prop := Sound State.reset

/-- For every state s, if step of s answers a next state t, then the queue of t is the tail of the queue of s, and what s had sent
is a prefix of what t has sent. That what was sent is kept in one list is the model's own field (log entry 15). (00_scope.md,
R169; the model's choices: log 15.) -/
def Obligations.StepTakesOneAndSendsOn : Prop :=
  ∀ s t : State, step s = .next t → t.pending = s.pending.tail ∧ s.out <+: t.out

/-- For every command c and every state s there is a state t such that exec of c on s answers next t: no command ends in a fault or
a refusal of the model. An event that the state does not admit leaves it as it is (log entry 2). (00_scope.md, R170; the model's
choices: log 2.) -/
def Obligations.EveryCommandCompletes : Prop := ∀ (c : Instr) (s : State), ∃ t, exec c s = .next t

/-- For every command c other than STORE_WRITE_DONE and all states s and t, if exec of c on s answers next t, then what the
Parameter Store has stored is the same in s and t: a power loss, a reset or any command leaves it as it was. (R157, R185, R186.) -/
def Obligations.StoreChangesOnlyWhenAWriteEnds : Prop :=
  ∀ (c : Instr) (s t : State), exec c s = .next t → (∀ ok, c ≠ .storeWriteDone ok) → t.pst.stored = s.pst.stored

/-- For all jumpers and every state: POWER_ON and RESET_LINE answer the same next state t, and RESET_LINE_ASSERTED answers that
start with the jumpers as they stood and the line marked asserted. In t the condition is STARTING, no fault record is open and
the record met open in the store is kept for its closing; the jumpers are the ones fitted; the time base is 0; the link is DOWN
with the line's signal as it was, no queue, tags or credits, and the Link Payload Default by its jumper; the Library Port is
LISTENING or DISABLED by its jumper with the address of its positions; all 25 events are unlatched, unmasked and not pending;
the Data Buffer, the engine, the write and read channels, motion, governor and head monitor are at their start values; the Tape
Directory is empty; custody lies with the Library Port; the cartridge, what the store holds, what was sent and the queue of
waiting commands are kept. The start values that the spec does not give, and a cartridge shown SEATED until LOADING, are the
model's (log entries 7 and 37). (R151, R182, R183, R146, R167, R178, R185; the model's choices: log 7 and 37.) -/
def Obligations.PowerOnStartsTheDriveAfresh : Prop :=
  ∀ (j : Jumpers) (s : State), ∃ t, exec (.powerOn j) s = .next t ∧ exec (.resetLine j) s = .next t
    ∧ (exec .resetLineAsserted s = .next { powerOnState s.jumpers s with frg.lineAsserted := true })
    ∧ t.frg.condition = .starting ∧ t.frg.lineAsserted = false ∧ t.frg.current = none ∧ t.frg.metOpen = s.pst.stored.current
    ∧ t.jumpers = j ∧ t.timeBase = 0
    ∧ t.dlp.link = .down ∧ t.dlp.signal = s.dlp.signal ∧ t.dlp.queue = [] ∧ t.dlp.tags = [] ∧ t.dlp.creditsOut = 0
    ∧ t.dlp.receiveCredits = 0 ∧ (t.dlp.payloadDefault = if j.linkPayload then 65536 else 16384)
    ∧ (t.lbp.line = if j.libraryEnable then .listening else .disabled) ∧ t.lbp.address = j.address ∧ t.lbp.questionFlag = false
    ∧ (∀ f ∈ t.events, f = ⟨false, 0, false, false⟩) ∧ t.events.length = 25
    ∧ t.dbf = {} ∧ t.cpe = {} ∧ t.wch = {} ∧ t.rch = {} ∧ t.moc = {} ∧ t.sgv = {} ∧ t.hcm = {}
    ∧ t.fmc = { eod := EodPos.empty } ∧ t.cah.holder = .library ∧ t.cah.question = none ∧ t.cah.stack = []
    ∧ t.cah.cartridge = s.cah.cartridge ∧ (t.cah.state = if s.cah.cartridge.isSome then .seated else .empty)
    ∧ t.pst = { stored := s.pst.stored } ∧ t.out = s.out ∧ t.pending = s.pending

/-- In STARTING with the line not asserted. Passed, with no cartridge and no queue: the stored items are loaded, the condition
becomes READY, the link follows the line's signal, Drive Ready is latched, and the custody policies and Auto-Thread in force are
the stored ones. Passed, with a cartridge found at power: with no stage done it is seated with custody LIBRARY, its memory read
begins, and READY and Cartridge Seated follow; with 1 to 4 stages done the drive is RECOVERING, the Thread Stack holds those
stages, and the first pop (or, from WRAP, the TENSION push) has begun. Failed: FAULTED with the unit BUFFER MEMORY and the cause
of the test, nothing loaded, and Drive Faulted latched. Each is followed by what follows every step (finish). (R131, R146, R151,
R183, R184, R186, R187.) -/
def Obligations.MemoryTestEndsStarting : Prop :=
  ∀ (stages : Nat) (s : State), s.frg.condition = .starting → s.frg.lineAsserted = false →
    (s.dlp.link = .down → s.dlp.queue = [] → s.cah.state = .empty → s.cah.cartridge = none →
        let t := memoryTestEnds true stages s
        exec (.bufferMemoryTestDone true stages) s = .next (finish t)
          ∧ t.frg.condition = .ready ∧ t.frg.wasReady = true ∧ t.frg.storeLoaded = true ∧ t.frg.resetWork = none
          ∧ (t.dlp.link = if s.dlp.signal then .awaitingHello else .down)
          ∧ (s.events.length = 25 → (flagsOf 18 t.events).latched = true)
          ∧ t.cah.libraryPolicy = t.pst.libraryPolicy ∧ t.cah.linkPolicy = t.pst.linkPolicy ∧ t.cah.autoThread = t.pst.autoThread
          ∧ t.cah.state = .empty ∧ t.cah.holder = s.cah.holder ∧ t.fmc = s.fmc ∧ t.wch = s.wch ∧ t.rch = s.rch ∧ t.out = s.out)
      ∧ (∀ c : Cartridge, s.dlp.link = .down → s.cah.cartridge = some c → s.cah.found = true →
        let t := memoryTestEnds true stages s
        exec (.bufferMemoryTestDone true stages) s = .next (finish t)
          ∧ (stages = 0 → t.frg.condition = .ready ∧ t.cah.state = .seated ∧ t.cah.cmReadAttempt = some 1 ∧ t.cah.cmReadable = false
              ∧ t.cah.sensedType = some c.notch ∧ t.cah.writeProtected = c.writeProtected ∧ t.cah.found = false
              ∧ t.cah.holder = .library
              ∧ (s.events.length = 25 → (flagsOf 1 t.events).latched = true))
          ∧ (1 ≤ stages → stages ≤ 4 → t.frg.condition = .recovering ∧ t.cah.state = .unthreading ∧ t.cah.recovering = true
              ∧ t.cah.stack = stageOrder.take stages
              ∧ (s.moc.operation = none → t.cah.stageWork = some (if stages = 4 then { stage := .tension, push := true, attempt := 1, timer := 0 }
                  else { stage := (stageOrder.getD (stages - 1) .seatLock), push := false, attempt := 1, timer := 0 }))))
      ∧ (let t := memoryTestEnds false stages s
        exec (.bufferMemoryTestDone false stages) s = .next (finish t)
          ∧ t.frg.condition = .faulted ∧ t.frg.testFailed = true ∧ t.frg.storeLoaded = s.frg.storeLoaded
          ∧ (s.frg.current = none → t.frg.current =
              some [⟨.bufferMemory, .memoryTest, s.timeBase, .starting, s.moc.motion, s.cah.state⟩])
          ∧ (s.events.length = 25 → (flagsOf 24 t.events).latched = true)
          ∧ t.cah = s.cah ∧ t.moc = s.moc ∧ t.fmc = s.fmc ∧ t.out = s.out)

/-- Loading the settings gives each setting its stored value where that lies in its range and else its start value: the Read-Ahead
Limit 32, compression on, Auto-Thread by the jumper, the library policy GRANT, the link policy ASK, the Link Payload Default by
its jumper, the address by the jumpers, and the event masks clear. A stored value out of range latches Equipment Warning, for
each of the Read-Ahead Limit, the two policies, compression, Auto-Thread, the Link Payload Default and the address override.
Loading the retained items gives the HCI, Motion Seconds and a Condition Level that is at least the stored one and at least what
HCI and Motion Seconds give, with the Cleaning Call and the condition cap of that level and its event due; a stored HCI or level
out of range latches Equipment Warning. Nothing is sent and the store is not changed. (R57, R150, R158, R167, R182, R185, R186.) -/
def Obligations.StoredItemsAreLoadedOrDefaulted : Prop :=
  ∀ s : State,
    let t := loadSettings s
    let d := s.pst.stored
    (t.dbf.readAheadLimit = match d.readAheadLimit with
        | some n => if n ≤ 96 then n else 32
        | none => 32)
      ∧ (t.cpe.switchOn = false ↔ d.compression = some 0)
      ∧ (t.pst.autoThread = match d.autoThread with
        | some 0 => false
        | some 1 => true
        | _ => s.jumpers.autoThread)
      ∧ (t.pst.libraryPolicy = match d.libraryPolicy with
        | some 2 => .refuse
        | some 3 => .ask
        | _ => .grant)
      ∧ (t.pst.linkPolicy = match d.linkPolicy with
        | some 1 => .grant
        | some 2 => .refuse
        | _ => .ask)
      ∧ (t.dlp.payloadDefault = match d.linkPayload with
        | some n => if 4096 ≤ n ∧ n ≤ 65536 then n else if s.jumpers.linkPayload then 65536 else 16384
        | none => if s.jumpers.linkPayload then 65536 else 16384)
      ∧ (t.lbp.address = match d.addressOverride with
        | some n => if n ≤ 15 then n else s.jumpers.address
        | none => s.jumpers.address)
      ∧ (t.events.map (fun f => f.masked) = match d.eventMask with
        | some m => (List.range s.events.length).map (fun i => m.getD i false)
        | none => s.events.map (fun _ => false))
      ∧ (∀ n, d.readAheadLimit = some n → 96 < n → s.events.length = 25 → (flagsOf 23 t.events).latched = true)
      ∧ (s.events.length = 25 →
          (∀ n, d.linkPolicy = some n → n = 0 ∨ 3 < n → (flagsOf 23 t.events).latched = true)
          ∧ (∀ n, d.libraryPolicy = some n → n = 0 ∨ 3 < n → (flagsOf 23 t.events).latched = true)
          ∧ (∀ n, d.compression = some n → 2 ≤ n → (flagsOf 23 t.events).latched = true)
          ∧ (∀ n, d.autoThread = some n → 2 ≤ n → (flagsOf 23 t.events).latched = true)
          ∧ (∀ n, d.linkPayload = some n → n < 4096 ∨ 65536 < n → (flagsOf 23 t.events).latched = true)
          ∧ (∀ n, d.addressOverride = some n → 17 ≤ n → (flagsOf 23 t.events).latched = true))
      ∧ t.out = s.out ∧ t.pst.stored = s.pst.stored ∧ t.hcm = s.hcm
      ∧ (let u := loadRetained s
        (u.hcm.hci = match d.hci with
          | some n => if n ≤ 1000 then n else 0
          | none => 0)
        ∧ u.hcm.motionSeconds = d.motionSeconds.getD 0
        ∧ (levelOf u.hcm.hci u.hcm.motionSeconds).rank ≤ u.hcm.level.rank
        ∧ (∀ n, d.level = some n → n ≤ 3 → n ≤ u.hcm.level.rank)
        ∧ (u.hcm.cleaningCall = true ↔ u.hcm.level ≠ .normal) ∧ u.hcm.samples = 0
        ∧ u.moc.conditionCap = levelCap u.hcm.level ∧ (u.frg.levelEventDue = true ↔ u.hcm.level ≠ .normal)
        ∧ (∀ n, d.hci = some n → 1000 < n → s.events.length = 25 → (flagsOf 23 u.events).latched = true)
        ∧ (∀ n, d.level = some n → 3 < n → s.events.length = 25 → (flagsOf 23 u.events).latched = true))

/-- With no reset in progress, the memory test not failed and an empty Medium Queue. RESET_DRIVE taken in READY is answered GOOD and
then: the fault record is closed into the history, the rings, the staging FIFO and the engine's intake are empty, only EOD
frames stay in the window, custody stays, and so do the latch and the count of Drive Faulted; in EMPTY, SEATED, HELD and
EJECTING the drive is READY at once with Drive Ready latched; in THREADED with the tape at rest and EOD current it is LOADING
and a seek to BOT has begun. LIBRARY_DRIVE_RESET in READY or FAULTED enters its GOOD record among what was sent first and does
the same work; in any other condition it answers Becoming Ready. With commands in the queue, the reply of the reset comes first
and every command, the head included, is then answered ABORTED in queue order, each with its results. That the drive is READY at
once in SEATED and EJECTING, and that the library's record is sent at once, are the model's readings (log entry 36). (R182,
R183, R188, R129, R85, R171, R180; the model's choices: log 36.) -/
def Obligations.DriveResetReturnsTheDriveToReady : Prop :=
  (∀ (tag : Tag) (s : State), s.frg.resetWork = none → s.frg.testFailed = false → s.dlp.queue = [] →
    (Open tag s →
        let t := driveReset (replied tag goodReply s)
        exec (.resetDrive tag) s = .next (finish t)
          ∧ t.frg.current = none ∧ t.dlp.queue = [] ∧ t.dbf.writeRing = [] ∧ t.dbf.readRing = [] ∧ t.dbf.staging = []
          ∧ t.cpe.intake = [] ∧ t.cpe.carryEntries = [] ∧ t.wch.endOfMediumStop = false ∧ t.wch.window = s.wch.window.filter (fun e => e.kind == .eod)
          ∧ (t.pst.history = match s.frg.current with
              | some l => closeInto ⟨l, .driveReset⟩ s.pst.history
              | none => s.pst.history)
          ∧ t.cah.holder = s.cah.holder ∧ (flagsOf 24 t.events).latched = (flagsOf 24 s.events).latched
          ∧ (flagsOf 24 t.events).count = (flagsOf 24 s.events).count
          ∧ (s.cah.state = .empty ∨ s.cah.state = .seated ∨ s.cah.state = .held ∨ s.cah.state = .ejecting →
              t.frg.condition = .ready ∧ t.frg.resetWork = none ∧ t.cah.state = s.cah.state
              ∧ (s.events.length = 25 → (flagsOf 18 t.events).latched = true))
          ∧ (s.cah.state = .threaded → s.moc.motion = .stopped → s.moc.operation = none → s.wch.writer = .idle → s.wch.eodCurrent = true →
              t.frg.condition = .loading ∧ t.frg.resetWork = some .rewind
              ∧ t.moc.operation = some ⟨.resetRewind, some botPlace, [.seek], false⟩ ∧ t.cah.state = .threaded))
      ∧ (s.lbp.line = .listening → s.frg.condition = .ready ∨ s.frg.condition = .faulted →
        let t := driveReset { s with lbp.line := .answering, lbp.answer := none, out := s.out ++ [.library (.reply s.lbp.address none none)] }
        exec .libraryDriveReset s = .next (finish t)
          ∧ s.out ++ [.library (.reply s.lbp.address none none)] <+: t.out ∧ t.lbp.line = .answering ∧ t.lbp.answer = none
          ∧ t.frg.current = none ∧ (s.cah.state = .empty → t.frg.condition = .ready))
      ∧ (s.lbp.line = .listening → s.frg.condition ≠ .ready → s.frg.condition ≠ .faulted →
        exec .libraryDriveReset s = .next (finish { s with
          lbp.line := .answering, lbp.answer := some (.reply s.lbp.address (some .becomingReady) none) })))
  ∧ (∀ (tag : Tag) (q : QEntry) (rest : List QEntry) (s : State), s.frg.resetWork = none → s.dlp.queue = q :: rest → s.dlp.run.mute = false →
    s.dlp.run.answered = false →
    let told (r : Results) : List Output := .reply q.tag ⟨.aborted, r⟩ :: rest.map (fun x => .reply x.tag ⟨.aborted, resultsOf x.cmd 0 s⟩)
    (Open tag s →
        exec (.resetDrive tag) s = .next (finish (driveReset (replied tag goodReply s)))
        ∧ ∃ r : Results, s.out ++ [.reply tag goodReply] ++ told r <+: (driveReset (replied tag goodReply s)).out)
      ∧ (s.lbp.line = .listening → s.frg.condition = .ready ∨ s.frg.condition = .faulted → s.dlp.link = .up →
        ∃ (t : State) (r : Results), exec .libraryDriveReset s = .next (finish t)
          ∧ s.out ++ [.library (.reply s.lbp.address none none)] ++ told r <+: t.out))

/-- A fault is added at the end of a record with fewer than 4 entries. A record with 4 whose lowest priority is below the fault's
loses the oldest of its entries with that priority, and the fault joins at the end, so that the list stays in the order of
report; otherwise the record is not changed. The suspect is a unit of the record that no entry outranks. (R187.) -/
def Obligations.FaultEntersTheRecordByPriority : Prop :=
  ∀ (x : FaultEntry) (l : List FaultEntry),
    (l.length < 4 → enterFault x l = some (l ++ [x]))
      ∧ (4 ≤ l.length → x.unit.priority < lowestPriority l →
          ∃ (before after : List FaultEntry) (e : FaultEntry), l = before ++ e :: after ∧ e.unit.priority = lowestPriority l
            ∧ (∀ y ∈ before, y.unit.priority ≠ lowestPriority l) ∧ enterFault x l = some (before ++ after ++ [x]))
      ∧ (4 ≤ l.length → lowestPriority l ≤ x.unit.priority → enterFault x l = none)
      ∧ (∀ e ∈ l, e.unit.priority ≤ lowestPriority l)
      ∧ (∀ u, suspectOf l = some u → (∃ e ∈ l, e.unit = u) ∧ ∀ e ∈ l, u.priority ≤ e.unit.priority)

/-- The 25 events have the numbers 1 to 25 in the table's order. A latch of an event not latched makes it latched with count 1 and,
when it is unmasked, sets its notice-pending flag; a latch of an event already latched raises the count by one up to 255 and
leaves the notice-pending flag. A latch changes the flags of its own event only, and two latches give the same state in either
order. (R175.) -/
def Obligations.LatchCountsAndPends : Prop :=
  (∀ f : EventFlags, f.latched = false →
      f.latch = { f with latched := true, count := 1, pending := f.pending || !f.masked })
    ∧ (∀ f : EventFlags, f.latched = true → f.latch = { f with count := min 255 (f.count + 1) })
    ∧ (∀ (e : Event) (s : State), s.events.length = 25 →
        latch e s = { s with events := s.events.modify (e.number - 1) EventFlags.latch } ∧ 1 ≤ e.number ∧ e.number ≤ 25)
    ∧ ([Event.cartridgeSeated, .incompatibleMedium, .threadComplete, .threadFailed, .unthreadComplete, .cartridgeEjected,
      .custodyChanged, .custodyAsked, .operationComplete, .earlyWarning, .writeFailure, .readFailure, .directoryInvalid,
      .directoryRebuilt, .cmWriteFailed, .cleaningAdvised, .cleaningRequired, .driveReady, .cleaningCritical, .cleaningDone,
      .cleaningIncomplete, .cleaningExpired, .equipmentWarning, .driveFaulted, .linkError].map Event.number = List.range' 1 25)
    ∧ (∀ a b : Event, a.number = b.number → a = b)
    ∧ (∀ (a b : Event) (s : State), latch a (latch b s) = latch b (latch a s))

/-- Taken in READY: with every number in 1..25, SET_EVENT_MASK is answered GOOD; an event it unmasks is unmasked, with a notice
pending when it is latched; an event it only masks is masked with no notice pending; every other event is as before.
CLEAR_EVENTS is answered GOOD; the events it names, or all, are not latched, with count 0 and no notice pending, their masks
kept; every other is as before. With a number outside 1..25 each is answered Bad Value and changes nothing. An event named in
both lists ends unmasked (the model's choice, log entry 43). (R176, R177; the model's choices: log 43.) -/
def Obligations.EventsAreMaskedAndCleared : Prop :=
  (∀ (tag : Tag) (mask unmask : List Nat) (s : State), Open tag s →
    ((mask ++ unmask).all eventNumberOk = true →
      let es := changeEvents unmask EventFlags.unmask (changeEvents mask EventFlags.mask s.events)
      exec (.setEventMask tag mask unmask) s = .next (sendNotices (replied tag goodReply { s with events := es }))
        ∧ ∀ n, 1 ≤ n → n ≤ s.events.length →
          (n ∈ unmask → (flagsOf n es).masked = false ∧ ((flagsOf n s.events).latched = true → (flagsOf n es).pending = true))
          ∧ (n ∉ unmask → n ∈ mask → flagsOf n es = { flagsOf n s.events with masked := true, pending := false })
          ∧ (n ∉ unmask → n ∉ mask → flagsOf n es = flagsOf n s.events))
    ∧ ((mask ++ unmask).all eventNumberOk = false →
        exec (.setEventMask tag mask unmask) s = .next (sendNotices (replied tag (senseReply .badValue) s))))
  ∧ (∀ (tag : Tag) (named : Option (List Nat)) (s : State), Open tag s →
    ((named.getD []).all eventNumberOk = true →
      let es := changeEvents (clearedEvents named) EventFlags.clear s.events
      exec (.clearEvents tag named) s = .next (sendNotices (replied tag goodReply { s with events := es }))
        ∧ ∀ n, 1 ≤ n → n ≤ s.events.length → n ≤ 25 →
          ((named = none ∨ n ∈ named.getD []) →
            flagsOf n es = { flagsOf n s.events with latched := false, count := 0, pending := false })
          ∧ (named ≠ none → n ∉ named.getD [] → flagsOf n es = flagsOf n s.events))
    ∧ ((named.getD []).all eventNumberOk = false →
        exec (.clearEvents tag named) s = .next (sendNotices (replied tag (senseReply .badValue) s))))

/-- With the link UP and a notice pending for some event, one Event notice is sent and every pending flag is cleared; with the link
not UP or no notice pending nothing changes. The notice lists exactly the pairs of number and count of the events that are
latched and unmasked. (R176.) -/
def Obligations.NoticesTellThePendingEvents : Prop :=
  ∀ s : State,
    (s.dlp.link = .up → (∃ f ∈ s.events, f.pending = true) →
        sendNotices s = { s with
          out := s.out ++ [.eventNotice (noticeList s.events)]
          events := s.events.map (fun f => { f with pending := false }) })
      ∧ (s.dlp.link ≠ .up ∨ (∀ f ∈ s.events, f.pending = false) → sendNotices s = s)
      ∧ (∀ n c : Nat, (n, c) ∈ noticeList s.events ↔
          1 ≤ n ∧ n ≤ s.events.length ∧ (flagsOf n s.events).latched = true ∧ (flagsOf n s.events).masked = false
            ∧ (flagsOf n s.events).count = c)

/-- For every state s that is Calm (the engine's state is the one its work gives, the writer is neither due to start nor due to go
idle, no flush is in hand, the reader neither begins nor ends a data set and has the tape it needs, the buffer's direction
stands, and no media operation, reset or command at the head waits for something that has come about), what follows a step
(finish) changes nothing but to send the pending Event notice. (R23, R47, R54, R55, R56, R87, R112, R114, R142, R171, R176,
R183.) -/
def Obligations.CalmStateOnlySendsNotices : Prop :=
  ∀ s : State, Calm s → finish s = sendNotices s

/-- LINE_SIGNAL_APPEARS takes the link from DOWN to AWAITING HELLO with the timer at 0 (in STARTING, or with the link not DOWN, only
the signal is noted). In AWAITING HELLO with an empty staging buffer and no question: HELLO fixes the agreed size as the lesser
of the host's maximum and 65,536, raised to 4,096, sends the drive's HELLO with 65,536 and that size, takes the link UP, stops a
grace timer and grants one credit per empty staging buffer; HELLO_TIMEOUT does the same with the Link Payload Default. A HELLO
on a link that is DOWN and a HELLO_TIMEOUT elsewhere change nothing (log entry 2); the timeout is an event that is not tested
against the count (log entry 1). (R167, R51, R149, R176; the model's choices: log 1 and 2.) -/
def Obligations.HelloExchangeBringsTheLinkUp : Prop :=
  (∀ s : State, (s.frg.condition ≠ .starting → s.dlp.link = .down →
      exec .lineSignalAppears s = .next { s with dlp.signal := true, dlp.link := .awaitingHello, dlp.helloTimer := 0 })
    ∧ (s.frg.condition = .starting ∨ s.dlp.link ≠ .down → exec .lineSignalAppears s = .next { s with dlp.signal := true }))
  ∧ (∀ (m : BitVec 24) (s : State), s.dlp.link = .awaitingHello → s.dlp.creditsOut + s.dbf.staging.length < 32 →
      s.cah.question = none →
      exec (.hello m) s = .next (sendNotices { s with
        dlp.crcRun := 0
        dlp.agreed := max 4096 (min m.toNat 65536)
        dlp.link := .up
        dlp.helloTimer := 0
        dlp.creditsOut := 32 - s.dbf.staging.length
        cah.grace := none
        out := s.out ++ [.hello 65536 (max 4096 (min m.toNat 65536)), .credit (32 - s.dbf.staging.length - s.dlp.creditsOut)] }))
  ∧ (∀ s : State, s.dlp.link = .awaitingHello → s.dlp.creditsOut + s.dbf.staging.length < 32 → s.cah.question = none →
      exec .helloTimeout s = .next (sendNotices { s with
        dlp.agreed := s.dlp.payloadDefault
        dlp.link := .up
        dlp.helloTimer := 0
        dlp.creditsOut := 32 - s.dbf.staging.length
        cah.grace := none
        out := s.out ++ [.hello 65536 s.dlp.payloadDefault, .credit (32 - s.dbf.staging.length - s.dlp.creditsOut)] }))
  ∧ (∀ (m : BitVec 24) (s : State), (s.dlp.link = .down → exec (.hello m) s = .next s)
      ∧ (s.dlp.link ≠ .awaitingHello → exec .helloTimeout s = .next s))

/-- With an empty Medium Queue: the loss of the line's signal takes the link DOWN, with no outstanding tags, no credits on either
side, the event masks taken back from the store, the tags of Save Settings and of a question forgotten, and a grace timer
started when the Data Link holds custody; on a link already DOWN only the signal is noted. A HELLO on a link that is UP does the
same, and then fixes the agreed size afresh, sends the drive's HELLO, stops the grace timer, grants the credits and leaves the
link UP. With commands in the queue whose head has not begun, or waits on a media operation, a commit, its placed filemarks or a
stop of the tape, the loss of the signal does the same and ends every command without a reply. What the masks taken back change
is the model's reading (log entry 9). (R168, R167, R51, R149, R172, R177; the model's choices: log 9.) -/
def Obligations.LinkResetClearsThePort : Prop :=
  (∀ s : State, s.dlp.queue = [] →
    let z : State := { s with
      dlp.tags := []
      dlp.creditsOut := 0
      dlp.receiveCredits := 0
      events := withMask s.pst.stored.eventMask s.events
      pst.writes := s.pst.writes.map StoreWrite.untag
      cah.question := s.cah.question.map (fun q => { q with tag := none })
      cah.grace := if s.cah.holder = .link then some 0 else s.cah.grace }
    (s.dlp.link ≠ .down → exec .lineSignalLost s = .next (finish { z with dlp.signal := false, dlp.link := .down }))
      ∧ (s.dlp.link = .down → exec .lineSignalLost s = .next { s with dlp.signal := false })
      ∧ (∀ m : BitVec 24, s.dlp.link = .up → s.dbf.staging.length < 32 → s.cah.question = none →
          exec (.hello m) s = .next (finish { z with
            dlp.crcRun := 0
            dlp.agreed := max 4096 (min m.toNat 65536)
            dlp.link := .up
            dlp.helloTimer := 0
            dlp.creditsOut := 32 - s.dbf.staging.length
            cah.grace := none
            out := s.out ++ [.hello 65536 (max 4096 (min m.toNat 65536)), .credit (32 - s.dbf.staging.length)] })))
  ∧ (∀ s : State, s.dlp.link ≠ .down → s.dlp.run.aborting = false → s.dlp.run.answered = false →
    s.dlp.run.phase = .notBegun ∨ s.dlp.run.phase = .waitMedia ∨ s.dlp.run.phase = .waitCommit ∨ s.dlp.run.phase = .waitSync
      ∨ s.dlp.run.phase = .waitStop →
    s.dlp.queue ≠ [] → exec .lineSignalLost s = .next (finish { s with
      dlp.signal := false
      dlp.link := .down
      dlp.queue := []
      dlp.run := {}
      dlp.tags := []
      dlp.creditsOut := 0
      dlp.receiveCredits := 0
      events := withMask s.pst.stored.eventMask s.events
      pst.writes := s.pst.writes.map StoreWrite.untag
      cah.question := s.cah.question.map (fun q => { q with tag := none })
      cah.grace := if s.cah.holder = .link then some 0 else s.cah.grace }))

/-- On a link that is not DOWN, BAD_CHECK_FRAME and FRAME_REJECTED raise Link Errors and latch Link Error; a bad check raises CRC
Run and a rejected frame, whose check was good, clears it. The eighth bad check in a row resets the link into AWAITING HELLO
with the timer and CRC Run at 0, no tags and no credits, and, with an empty Medium Queue, reports a fault of the unit LINK
without freezing the drive. On a link that is DOWN both change nothing (log entry 2). (R165, R166, R168, R187; the model's
choices: log 2.) -/
def Obligations.BadChecksAreCounted : Prop :=
  ∀ s : State,
    (s.dlp.link = .down → exec .badCheckFrame s = .next s ∧ exec .frameRejected s = .next s)
      ∧ (s.dlp.link ≠ .down →
          let e : State := { s with
            dlp.linkErrors := s.dlp.linkErrors + 1
            events := s.events.modify 24 EventFlags.latch }
          (s.dlp.crcRun + 1 < 8 →
            exec .badCheckFrame s = .next (sendNotices { e with dlp.crcRun := s.dlp.crcRun + 1 }))
          ∧ exec .frameRejected s = .next (sendNotices { e with dlp.crcRun := 0 })
          ∧ (s.dlp.crcRun + 1 = 8 →
              let t := crcRunFull (linkError s)
              exec .badCheckFrame s = .next (finish t)
              ∧ t.dlp.link = .awaitingHello ∧ t.dlp.crcRun = 0 ∧ t.dlp.helloTimer = 0 ∧ t.dlp.tags = [] ∧ t.dlp.creditsOut = 0
              ∧ t.dlp.receiveCredits = 0 ∧ t.dlp.linkErrors = s.dlp.linkErrors + 1
              ∧ (s.dlp.queue = [] → t.frg.condition = s.frg.condition)
              ∧ (s.dlp.queue = [] → s.frg.current = none → t.frg.current =
                  some [⟨.link, .crcRun, s.timeBase, s.frg.condition, s.moc.motion, s.cah.state⟩])))

/-- A Data Link frame has ten bytes beyond its payload and its check holds; a library record sums to zero, with 8 bytes for the
status record and 11 for a Reply record; a sense record has 21 bytes, begins with its outcome and reason codes, and carries
Information, DSN and Count, where given, in bytes 5 to 10, 11 to 14 and 15 to 20; GOOD and ABORTED are one byte. A REPLY is a
frame of Kind 3 with Flags 0 and the tag, whose payload is the outcome block followed by the results; every count and object
number among the results is six bytes, most significant first: the Position, the records, an attribute that is a count, the
Position of Read Position before its other figures, and the four session counts of Read Counters before the others. How a figure
that is no count is laid out is a free value (log entry 45), and so are the fields of a sense record that are not given (log
entry 4). (R165, R166, R173, R174, R178, R179, R180; the model's choices: log 4 and 45.) -/
def Obligations.RepliesRecordsAndFramesHaveTheirBytes : Prop :=
  (∀ (kind flags : Nat) (tag : Tag) (payload : List Byte),
    checkHolds (frameBytes kind flags tag payload) = true ∧ (frameBytes kind flags tag payload).length = 10 + payload.length)
  ∧ (∀ r : LibRecord, byteSum (libBytes r) = 0#8 ∧ ((libBytes r).length = match r with
    | .status _ => 8
    | .reply _ _ _ => 11))
  ∧ (∀ x : Sense, (senseBytes x).length = 21 ∧ (outcomeBytes .good = [0#8]) ∧ (outcomeBytes .aborted = [11#8])
    ∧ outcomeBytes (.sense x) = senseBytes x ∧ (senseBytes x).take 2 = [BitVec.ofNat 8 x.reason.outcomeCode, BitVec.ofNat 8 x.reason.code]
    ∧ (∀ n, x.info = some n → ((senseBytes x).drop 5).take 6 = bytesOf 6 n)
    ∧ (∀ n, x.dsn = some n → ((senseBytes x).drop 11).take 4 = bytesOf 4 n)
    ∧ (∀ n, x.count = some n → (senseBytes x).drop 15 = bytesOf 6 n))
  ∧ (∀ (tag : Tag) (r : Reply), outputBytes (.reply tag r) = some (frameBytes 3 0 tag (outcomeBytes r.outcome ++ resultBytes r.results)))
  ∧ (∀ n p : Nat, resultBytes .none = [] ∧ resultBytes (.position p) = bytesOf 6 p ∧ resultBytes (.records n p) = bytesOf 6 n ++ bytesOf 6 p
    ∧ resultBytes (.discarded n) = bytesOf 6 n ∧ resultBytes (.attribute_ (.number n)) = bytesOf 6 n)
  ∧ (∀ (p : Nat) (wrap lpos : Option Nat) (ew : Bool) (last : Option ImmediateResult),
    (resultBytes (.positionReport p wrap lpos ew last)).take 6 = bytesOf 6 p)
  ∧ (∀ r : CounterReport, ((resultBytes (.counters r)).take 24) = bytesOf 6 r.accepted ++ bytesOf 6 r.committed ++ bytesOf 6 r.discarded
    ++ bytesOf 6 r.held)
  ∧ (∀ k n : Nat, (bytesOf k n).length = k ∧ (bytesOf k n).foldl (fun a b => a * 256 + b.toNat) 0 = n % 256 ^ k)

/-- On a link that is UP, a COMMAND whose tag is outstanding is answered Tag In Use; else, where its row is barred in the drive
condition, Becoming Ready; else it is taken. Rows in general are barred in the conditions other than READY and FAULTED, Reset
Drive in those while no reset is in progress. A medium command is answered Queue Full when 16 wait, joins the end of a queue
that is not empty, and begins at once in an empty one; a command that joins makes its tag outstanding. (R170, R171, R183.) -/
def Obligations.CommandsAreTakenInOrder : Prop :=
  (∀ (tag : Tag) (barred : State → Bool) (k : State → State) (s : State), s.dlp.link = .up →
    (s.dlp.tags.contains tag = true →
        frameIn (commandIn tag barred k) s = replied tag (senseReply .tagInUse) s)
      ∧ (s.dlp.tags.contains tag = false → barred (heard s) = true →
        frameIn (commandIn tag barred k) s = replied tag (senseReply .becomingReady) s)
      ∧ (s.dlp.tags.contains tag = false → barred (heard s) = false → frameIn (commandIn tag barred k) s = k (heard s))
      ∧ (notServed s = true ↔ s.frg.condition ≠ .ready ∧ s.frg.condition ≠ .faulted)
      ∧ (resetBarred s = true ↔ notServed s = true ∧ s.frg.resetWork = none))
  ∧ (∀ (tag : Tag) (c : MedCmd) (s : State),
    (s.dlp.link = .up → 16 ≤ s.dlp.queue.length → enqueue tag c s = emit (.reply tag (senseReply .queueFull)) s)
      ∧ (s.dlp.queue.length < 16 → s.dlp.queue ≠ [] → enqueue tag c s =
          { s with dlp.queue := s.dlp.queue ++ [⟨tag, c⟩], dlp.tags := s.dlp.tags ++ [tag] })
      ∧ (s.dlp.queue = [] → enqueue tag c s =
          beginCommand tag c { s with dlp.queue := [⟨tag, c⟩], dlp.tags := s.dlp.tags ++ [tag] }))

/-- With the link UP and the tag not outstanding: STATUS and IDENTIFY are answered GOOD with their reports in every condition and
UNKNOWN_COMMAND is answered Bad Command; in READY and FAULTED, READ_POSITION, READ_COUNTERS and READ_FAULT_RECORD are answered
GOOD with the reports the rule names. Nothing else of the drive changes but CRC Run. (R170, R105, R187, R188.) -/
def Obligations.ReportsAreAnsweredAtOnce : Prop :=
  ∀ (tag : Tag) (s : State), s.dlp.link = .up → s.dlp.tags.contains tag = false →
    exec (.status tag) s = .next (sendNotices (replied tag ⟨.good, .status (statusReport s)⟩ s))
      ∧ exec (.identify tag) s = .next (sendNotices (replied tag
          ⟨.good, .identity Config.vendorText Config.modelText Config.driveSerial Config.firmwareLevel s.lbp.address⟩ s))
      ∧ exec (.unknownCommand tag) s = .next (sendNotices (replied tag (senseReply .badCommand) s))
      ∧ (s.frg.condition = .ready ∨ s.frg.condition = .faulted →
          exec (.readPosition tag) s = .next (sendNotices (replied tag ⟨.good, .positionReport s.fmc.position s.moc.wrap s.moc.lpos
              s.fmc.earlyWarning s.rch.lastImmediate⟩ s))
            ∧ exec (.readCounters tag) s = .next (sendNotices (replied tag ⟨.good, .counters (counterReport s)⟩ s))
            ∧ exec (.readFaultRecord tag) s = .next (sendNotices (replied tag
              ⟨.good, .faults (suspectOf (s.frg.current.getD [])) s.frg.current s.pst.history s.pst.statusGood⟩ s)))

/-- Taken in READY for a named attribute or a user slot 0 to 15. With a readable Cartridge Memory past SEATED: READ_ATTRIBUTE is
answered GOOD with the attribute's value; WRITE_ATTRIBUTE of a user slot on a data cartridge sets or empties the slot of the
image; of another attribute it is answered Bad Attribute; on a cleaning cartridge Cleaning Cartridge. In EMPTY or SEATED both
commands are answered No Cartridge, and with an unreadable memory CM Unreadable, whichever attribute a Write Attribute names and
whatever fitting value it carries. The order of the refusals is the model's choice (log entry 30). (R132; the model's choices:
log 30.) -/
def Obligations.AttributesAreReadAndWritten : Prop :=
  ∀ (tag : Tag) (a : AttrName) (i : CmImage) (s : State), Open tag s → attrFits a = true →
    (s.cah.state ≠ .empty → s.cah.state ≠ .seated → s.cah.cmReadable = true → s.cah.image = some i →
        exec (.readAttribute tag a) s = .next (sendNotices (replied tag ⟨.good, .attribute_ (attrValue a i)⟩ s))
          ∧ (∀ (n : Nat) (v : Option (List Byte)), a = .user n → attrValueFits v = true → i.cartType = .data →
              exec (.writeAttribute tag a v) s =
                .next (sendNotices (replied tag goodReply { s with cah.image := some { i with user := setSlot n v i.user } })))
          ∧ (∀ v : Option (List Byte), (∀ n, a ≠ .user n) → attrValueFits v = true → i.cartType = .data →
              exec (.writeAttribute tag a v) s = .next (sendNotices (replied tag (senseReply .badAttribute) s)))
          ∧ (∀ v : Option (List Byte), attrValueFits v = true → i.cartType = .cleaning →
              exec (.writeAttribute tag a v) s = .next (sendNotices (replied tag (senseReply .cleaningCartridge) s))))
      ∧ (s.cah.state = .empty ∨ s.cah.state = .seated →
        exec (.readAttribute tag a) s = .next (sendNotices (replied tag (senseReply .noCartridge) s))
          ∧ (∀ v : Option (List Byte), attrValueFits v = true →
              exec (.writeAttribute tag a v) s = .next (sendNotices (replied tag (senseReply .noCartridge) s))))
      ∧ (s.cah.state ≠ .empty → s.cah.state ≠ .seated → s.cah.cmReadable = false →
        exec (.readAttribute tag a) s = .next (sendNotices (replied tag (senseReply .cmUnreadable) s))
          ∧ (∀ v : Option (List Byte), attrValueFits v = true →
              exec (.writeAttribute tag a v) s = .next (sendNotices (replied tag (senseReply .cmUnreadable) s))))

/-- Taken in READY: the Read-Ahead Limit is set to the value, at most 96, and the value set is returned; compression and Auto-Thread
take 0 and 1; the link policy takes 1 to 3; the Link Payload Default takes 4,096 to 65,536; the Drive Address Override takes 0
to 15, and 16 for none; the event mask takes a value of 25 bits, of which bit k masks event k + 1. Each is answered GOOD with
the value. A value outside the range, the library policy and a name that is no setting are answered Bad Value and change
nothing. The numbering of the event mask's bits, the 16 that stands for no override and Bad Value for the last two names are the
model's choices (log entry 30). (R57, R185, R150, R170; the model's choices: log 30.) -/
def Obligations.SettingsTakeTheirValues : Prop :=
  ∀ (tag : Tag) (v : Nat) (s : State), Open tag s →
    (exec (.setSetting tag .readAheadLimit v) s =
        .next (finish (replied tag ⟨.good, .value (min v 96)⟩ { s with dbf.readAheadLimit := min v 96 })))
      ∧ (∀ b : Bool, v = (if b then 1 else 0) →
          exec (.setSetting tag .compression v) s = .next (sendNotices (replied tag ⟨.good, .value v⟩ { s with cpe.switchOn := b }))
          ∧ exec (.setSetting tag .autoThread v) s = .next (sendNotices (replied tag ⟨.good, .value v⟩ { s with pst.autoThread := b })))
      ∧ (∀ p : Policy, v = policyCode p →
          exec (.setSetting tag .linkPolicy v) s = .next (sendNotices (replied tag ⟨.good, .value v⟩ { s with pst.linkPolicy := p })))
      ∧ (4096 ≤ v → v ≤ 65536 → exec (.setSetting tag .linkPayloadDefault v) s =
          .next (sendNotices (replied tag ⟨.good, .value v⟩ { s with pst.linkPayload := v })))
      ∧ (v ≤ 16 → exec (.setSetting tag .driveAddressOverride v) s = .next (sendNotices (replied tag ⟨.good, .value v⟩
          { s with pst.addressOverride := if v = 16 then none else some v })))
      ∧ (v < 2 ^ 25 → exec (.setSetting tag .eventMask v) s = .next (sendNotices (replied tag ⟨.good, .value v⟩
          { s with events := withMaskValue v s.events })))
      ∧ (∀ k, k < s.events.length → (flagsOf (k + 1) (withMaskValue v s.events)).masked = v.testBit k
          ∧ (flagsOf (k + 1) (withMaskValue v s.events)).latched = (flagsOf (k + 1) s.events).latched)
      ∧ (∀ n : SettingName, ((2 ^ 25 ≤ v ∧ n = .eventMask) ∨ n = .libraryPolicy ∨ n = .unknown ∨ (2 ≤ v ∧ (n = .compression ∨ n = .autoThread))
            ∨ (v = 0 ∨ 4 ≤ v) ∧ n = .linkPolicy ∨ (v < 4096 ∨ 65536 < v) ∧ n = .linkPayloadDefault
            ∨ 17 ≤ v ∧ n = .driveAddressOverride) →
          exec (.setSetting tag n v) s = .next (sendNotices (replied tag (senseReply .badValue) s)))

/-- SAVE_SETTINGS taken in READY makes its tag outstanding and begins a write of the settings in force. A write that ends well puts
its content into the store and sets Store Status GOOD, and a Save Settings it was made for is answered GOOD; one that fails,
with no Save Settings waiting for it, leaves the store, sets the status FAILED and latches Equipment Warning. The end of a write
while none is in progress changes nothing (log entry 2). That writes end in the order in which they began is the model's choice
(log entry 11). (R157, R185, R186; the model's choices: log 2 and 11.) -/
def Obligations.StoreWritesBeginAndEnd : Prop :=
  (∀ (tag : Tag) (s : State), Open tag s → exec (.saveSettings tag) s = .next (sendNotices { heard s with
      dlp.tags := s.dlp.tags ++ [tag]
      pst.writes := s.pst.writes ++ [.settings (some tag) (settingsContent s)] }))
  ∧ (∀ (s : State) (w : StoreWrite) (rest : List StoreWrite), s.pst.writes = w :: rest → (∀ t d, w ≠ .settings (some t) d) →
      exec (.storeWriteDone true) s = .next (sendNotices { s with
        pst.writes := rest, pst.statusGood := true, pst.stored := s.pst.stored.write w })
      ∧ exec (.storeWriteDone false) s = .next (sendNotices { s with
        pst.writes := rest, pst.statusGood := false, events := s.events.modify 22 EventFlags.latch }))
  ∧ (∀ (s : State) (t : Tag) (d : Stored) (rest : List StoreWrite), s.pst.writes = .settings (some t) d :: rest → s.dlp.link = .up →
      exec (.storeWriteDone true) s = .next (sendNotices { s with
        pst.writes := rest, pst.statusGood := true
        pst.stored := { d with history := s.pst.stored.history, current := s.pst.stored.current }
        dlp.tags := s.dlp.tags.filter (· ≠ t)
        out := s.out ++ [.reply t goodReply] }))
  ∧ (∀ (ok : Bool) (s : State), s.pst.writes = [] → exec (.storeWriteDone ok) s = .next (sendNotices s))

/-- Taken in READY, naming a tag other than its own and answered GOOD first: a tag not outstanding is answered Not Found; the tag of
a waiting custody question ends it with ABORTED and clears the question flag; a command anywhere behind the head leaves the
queue with ABORTED and its results; a tag outstanding with no question and no queue (a Save Settings) is answered Too Late. The
head ends with ABORTED at once while it waits (on a media operation, a commit, its filemarks, a stop of the tape); a receiving
Write Records with its records Accepted kept and its partial record dropped; a reading Read Records with the collection dropped
and Read-Ahead STOPPED, unless a collection runs, where that waits for the boundary; a Locate in a seek with its first Position;
a Rewind with Position 0; a Rebuild pass in its rewind with the table dropped. A Locate whose scan or collection runs, and a
Rebuild pass that reads or collects in pass 0, stop at the next boundary, and the header met there ends the Locate with its
first object as the Position. Too Late for a Save Settings is the model's choice, and which boundary a collection is at its
reading (log entry 34). (R17, R81, R96, R101, R103, R104, R172; the model's choices: log 34.) -/
def Obligations.AbortNamesATag : Prop :=
  ∀ (tag named : Tag) (s : State), Open tag s → named ≠ tag →
    (s.dlp.tags.contains named = false →
        exec (.abort tag named) s = .next (finish (replied tag (senseReply .notFound) s)))
      ∧ (s.dlp.tags.contains named = true → s.cah.question.bind (fun q => q.tag) = some named →
          exec (.abort tag named) s = .next (finish { heard s with
            cah.question := none
            lbp.questionFlag := false
            dlp.tags := s.dlp.tags.filter (· ≠ named)
            out := s.out ++ [.reply tag goodReply, .reply named { outcome := .aborted }] }))
      ∧ (∀ (q x : QEntry) (rest : List QEntry), s.dlp.tags.contains named = true → s.cah.question = none → s.dlp.queue = q :: rest →
          q.tag ≠ named → rest.find? (fun y => y.tag == named) = some x →
          exec (.abort tag named) s = .next (finish { heard s with
            dlp.queue := q :: rest.filter (fun y => y.tag ≠ named)
            dlp.tags := s.dlp.tags.filter (· ≠ named)
            out := s.out ++ [.reply tag goodReply, .reply named ⟨.aborted, resultsOf x.cmd 0 s⟩] }))
      ∧ (s.dlp.tags.contains named = true → s.cah.question = none → s.dlp.queue = [] →
          exec (.abort tag named) s = .next (finish (replied tag (senseReply .tooLate) s)))
      ∧ (∀ (q : QEntry) (rest : List QEntry), s.dlp.tags.contains named = true → s.cah.question = none → s.dlp.queue = q :: rest →
          q.tag = named → s.dlp.run.mute = false → s.dlp.run.aborting = false → s.dlp.run.answered = false →
          let t := abortHead (replied tag goodReply s)
          let ended (r : Results) : Prop := exec (.abort tag named) s = .next (finish t) ∧ t.dlp.queue = rest ∧ t.dlp.run = {}
            ∧ t.dlp.tags = s.dlp.tags.filter (· ≠ named) ∧ (.reply named ⟨.aborted, r⟩ : Output) ∈ t.out
          let atBoundary (t : State) : Prop := exec (.abort tag named) s = .next (finish t)
          (s.dlp.run.phase = .notBegun ∨ s.dlp.run.phase = .waitMedia ∨ s.dlp.run.phase = .waitCommit ∨ s.dlp.run.phase = .waitSync
              ∨ s.dlp.run.phase = .waitStop →
            exec (.abort tag named) s = .next (finish { heard s with
              dlp.queue := rest
              dlp.run := {}
              dlp.tags := s.dlp.tags.filter (· ≠ named)
              out := s.out ++ [.reply tag goodReply, .reply named ⟨.aborted, resultsOf q.cmd (headFigure q.cmd s) s⟩] }))
          ∧ (∀ (u : Bool) (ls : List Nat), s.dlp.run.phase = .receiving → q.cmd = .writeRecords u ls →
              ended (.records s.dlp.run.accepted s.fmc.position) ∧ t.fmc.accepted = s.fmc.accepted ∧ t.fmc.position = s.fmc.position
              ∧ t.cpe.intake.all (fun x => !x.partialOf named) = true)
          ∧ (∀ l n : Nat, s.dlp.run.phase = .reading → q.cmd = .readRecords l n →
              (readBetween s = true →
                atBoundary { replied tag goodReply s with dlp.run.aborting := true, dbf.readAheadActive := false })
              ∧ (readBetween s = false → ended (.records s.dlp.run.delivered s.fmc.position) ∧ t.fmc = s.fmc
                ∧ t.dbf.readAheadActive = false ∧ t.rch.resume = none ∧ t.rch.scan = none
                ∧ ((readingSlot s).isSome = true → t.rch.current = none ∧ t.rch.next = none
                    ∧ t.dbf.readRing = s.dbf.readRing.filter (fun d => d.state ≠ .reading))))
          ∧ (∀ (x : Nat) (imm : Bool), s.dlp.run.phase = .searching → q.cmd = .locate x imm →
              (readBetween s = true → atBoundary { replied tag goodReply s with dlp.run.aborting := true })
              ∧ (readBetween s = false → ended (.position s.dlp.run.startPosition) ∧ t.fmc.position = s.dlp.run.startPosition
                ∧ t.rch.scan = none))
          ∧ (∀ (x : Nat) (imm : Bool), s.dlp.run.phase = .moving → q.cmd = .locate x imm →
              ended (.position s.dlp.run.startPosition) ∧ t.fmc.position = s.dlp.run.startPosition ∧ t.rch.scan = none)
          ∧ (∀ imm : Bool, s.dlp.run.phase = .moving → q.cmd = .rewind imm →
              ended (.position 0) ∧ t.fmc.position = 0 ∧ t.rch.expected = none ∧ t.rch.resume = none)
          ∧ (∀ r : Rebuild, s.dlp.run.phase = .rebuilding → q.cmd = .rebuildDirectory → s.rch.rebuild = some r →
              (rebuildingNow s = true ∨ readBetween s = true →
                atBoundary { replied tag goodReply s with dlp.run.aborting := true })
              ∧ (rebuildingNow s = false → readBetween s = false → ended (.position r.expectedObject) ∧ t.rch.rebuild = none
                ∧ t.fmc.position = r.expectedObject ∧ t.fmc.directoryValid = s.fmc.directoryValid)))
      ∧ (∀ (q : QEntry) (rest : List QEntry) (lpos k x : Nat) (imm : Bool) (h : Header), s.dlp.queue = q :: rest → q.tag = named →
          q.cmd = .locate x imm → s.dlp.run.mute = false → s.dlp.run.answered = false → s.dlp.run.aborting = true →
          s.dlp.run.phase = .searching → scanningNow s = true →
          let t := scanBoundary lpos (.readable (.header k h)) s
          exec (.headerScanFrame lpos (.readable (.header k h))) s = .next (finish t) ∧ t.dlp.queue = rest
            ∧ t.fmc.position = h.firstObject ∧ t.rch.scan = none ∧ (.reply named ⟨.aborted, .position h.firstObject⟩ : Output) ∈ t.out)

/-- Taken in READY: No Cartridge in EMPTY; GOOD when the Data Link holds custody; Question Pending while a question is posted; else
by the library policy: GRANT passes custody, stops the grace timer and latches Custody Changed; REFUSE answers Custody Refused;
ASK posts the question with the request's tag, which stays outstanding, and sets the question flag. (R147, R148, R150.) -/
def Obligations.LinkCustodyRequestsAreRuledInOrder : Prop :=
  ∀ (tag : Tag) (s : State), Open tag s →
    (s.cah.state = .empty → exec (.custodyRequest tag) s = .next (sendNotices (replied tag (senseReply .noCartridge) s)))
      ∧ (s.cah.state ≠ .empty → s.cah.holder = .link → exec (.custodyRequest tag) s = .next (sendNotices (replied tag goodReply s)))
      ∧ (s.cah.state ≠ .empty → s.cah.holder = .library → s.cah.question.isSome = true →
          exec (.custodyRequest tag) s = .next (sendNotices (replied tag (senseReply .questionPending) s)))
      ∧ (s.cah.state ≠ .empty → s.cah.holder = .library → s.cah.question = none → s.cah.libraryPolicy = .grant →
          exec (.custodyRequest tag) s = .next (sendNotices (replied tag goodReply { s with
            cah.holder := .link
            cah.grace := none
            events := s.events.modify 6 EventFlags.latch })))
      ∧ (s.cah.state ≠ .empty → s.cah.holder = .library → s.cah.question = none → s.cah.libraryPolicy = .refuse →
          exec (.custodyRequest tag) s = .next (sendNotices (replied tag (senseReply .custodyRefused) s)))
      ∧ (s.cah.state ≠ .empty → s.cah.holder = .library → s.cah.question = none → s.cah.libraryPolicy = .ask →
          exec (.custodyRequest tag) s = .next (sendNotices { heard s with
            cah.question := some { requester := .link, timer := 0, tag := some tag }
            dlp.tags := s.dlp.tags ++ [tag]
            lbp.questionFlag := true }))

/-- Taken in READY: CUSTODY_ANSWER without custody is answered No Custody, and with custody and no question No Question; else it is
answered GOOD and ends the question, clears the question flag and answers a tag still held by it GOOD or Custody Refused;
granting the library's question passes custody and latches Custody Changed. RELEASE is answered No Cartridge in EMPTY, No
Custody without custody, and else GOOD with custody passed to the Library Port, which settles a question of the library as
granted. That No Custody is tested first is the model's choice (log entry 38). (R146, R147, R148; the model's choices: log 38.) -/
def Obligations.LinkAnswersAndReleasesCustody : Prop :=
  ∀ (tag : Tag) (s : State), Open tag s →
    (∀ grant : Bool,
        (s.cah.holder ≠ .link → exec (.custodyAnswer tag grant) s = .next (sendNotices (replied tag (senseReply .noCustody) s)))
        ∧ (s.cah.holder = .link → s.cah.question = none →
            exec (.custodyAnswer tag grant) s = .next (sendNotices (replied tag (senseReply .noQuestion) s)))
        ∧ (∀ (q : Question) (x : Tag), s.cah.holder = .link → s.cah.question = some q → q.tag = some x →
            let t := settleQuestion grant (replied tag goodReply s)
            exec (.custodyAnswer tag grant) s = .next (sendNotices t) ∧ t.cah.question = none ∧ t.lbp.questionFlag = false
              ∧ t.dlp.tags = s.dlp.tags.filter (· ≠ x)
              ∧ t.out = s.out ++ [.reply tag goodReply, .reply x (if grant then goodReply else senseReply .custodyRefused)])
        ∧ (∀ q : Question, s.cah.holder = .link → s.cah.question = some q → q.requester = .library → q.tag = none →
            exec (.custodyAnswer tag grant) s = .next (sendNotices (replied tag goodReply { s with
              cah.question := none
              lbp.questionFlag := false
              cah.holder := if grant then .library else .link
              cah.grace := if grant then none else s.cah.grace
              events := if grant then s.events.modify 6 EventFlags.latch else s.events }))))
      ∧ (s.cah.state = .empty → exec (.release tag) s = .next (sendNotices (replied tag (senseReply .noCartridge) s)))
      ∧ (s.cah.state ≠ .empty → s.cah.holder ≠ .link →
          exec (.release tag) s = .next (sendNotices (replied tag (senseReply .noCustody) s)))
      ∧ (s.cah.state ≠ .empty → s.cah.holder = .link → s.cah.question = none →
          exec (.release tag) s = .next (sendNotices (replied tag goodReply { s with
            cah.holder := .library
            cah.grace := none
            events := s.events.modify 6 EventFlags.latch })))
      ∧ (∀ q : Question, s.cah.state ≠ .empty → s.cah.holder = .link → s.cah.question = some q → q.requester = .library → q.tag = none →
          exec (.release tag) s = .next (sendNotices (replied tag goodReply { s with
            cah.question := none
            lbp.questionFlag := false
            cah.holder := .library
            cah.grace := none
            events := s.events.modify 6 EventFlags.latch })))

/-- In LISTENING a POLL is answered with the status record and an unknown type with Bad Command; in every other line state both
change nothing. An ignored record changes nothing. LIBRARY_ANSWER_SENT sends the answer and returns to LISTENING; with no answer
left it returns to LISTENING unless an order waits. A break on an enabled port drops the answer and the waiting order, clears
the question flag, and ends a question of the Data Link with Custody Refused; BREAK_ENDS returns to LISTENING. A disabled port
takes no notice of a break, and BREAK_ENDS outside a break changes nothing (log entry 2). That an answer waits in the port until
it is sent is the model's choice (log entry 16). (R148, R178, R179, R180; the model's choices: log 2 and 16.) -/
def Obligations.LibraryLineCarriesPollsAndBreaks : Prop :=
  ∀ (s : State) (x : Byte),
    (s.lbp.line = .listening →
        exec .poll s = .next { s with lbp.line := .answering, lbp.answer := some (.status (statusRecord s)) }
        ∧ (libraryType x = false → exec (.libraryUnknownType x) s = .next { s with
            lbp.line := .answering, lbp.answer := some (.reply s.lbp.address (some .badCommand) none) }))
      ∧ (s.lbp.line ≠ .listening → exec .poll s = .next s ∧ exec (.libraryUnknownType x) s = .next s)
      ∧ exec .libraryRecordIgnored s = .next s
      ∧ (∀ r : LibRecord, s.lbp.line = .answering → s.lbp.answer = some r → exec .libraryAnswerSent s = .next { s with
          out := s.out ++ [.library r], lbp.line := .listening, lbp.answer := none })
      ∧ (s.lbp.line = .answering → s.lbp.answer = none → exec .libraryAnswerSent s = .next { s with
          lbp.line := if s.lbp.waiting = none then .listening else .answering })
      ∧ (s.lbp.line ≠ .disabled → (∀ q : Question, s.cah.question = some q → q.requester = .library) →
          exec .libraryLineBreak s = .next (sendNotices { s with
            lbp.line := .inBreak, lbp.answer := none, lbp.waiting := none, lbp.questionFlag := false }))
      ∧ (∀ q : Question, ∀ t : Tag, s.lbp.line ≠ .disabled → s.cah.question = some q → q.requester = .link → q.tag = some t →
          s.dlp.link = .up →
          exec .libraryLineBreak s = .next (sendNotices { s with
            lbp.line := .inBreak, lbp.answer := none, lbp.waiting := none, lbp.questionFlag := false
            cah.question := none
            dlp.tags := s.dlp.tags.filter (· ≠ t)
            out := s.out ++ [.reply t (senseReply .custodyRefused)] }))
      ∧ (s.lbp.line = .disabled → exec .libraryLineBreak s = .next s)
      ∧ (s.lbp.line = .inBreak → exec .breakEnds s = .next { s with lbp.line := .listening })
      ∧ (s.lbp.line ≠ .inBreak → exec .breakEnds s = .next s)

/-- In LISTENING: LIBRARY_CUSTODY_REQUEST is answered No Cartridge in EMPTY, GOOD when the library holds custody, Question Pending,
later for medium work and for cleaning, and else by the link policy: GRANT passes custody and latches Custody Changed, REFUSE
answers Custody Refused, ASK posts the question, latches Custody Asked, sends the notice on a link that is UP and answers
Question Posted. LIBRARY_CUSTODY_ANSWER settles a question of the Data Link by its body, 1 or 2, with the waiting host's tag,
where one is held, answered GOOD or Custody Refused, and answers Bad Value to another body and No Custody without custody.
CUSTODY_RELEASE passes custody to the Data Link and settles a question of the Data Link as granted, with a held tag answered
GOOD, or answers No Custody; the grace timer starts on a link that is not UP. SET_LIBRARY_POLICY takes 1 to 3 and answers Bad
Value to another body. A grace timer for a link that is down at the passing is the model's reading (log entry 38). (R146, R147,
R148, R149, R150, R180; the model's choices: log 38.) -/
def Obligations.LibraryCustodyRecordsAreAnswered : Prop :=
  ∀ s : State, s.lbp.line = .listening →
    let said (r : Option Reason) (x : State) : State :=
      { x with lbp.line := .answering, lbp.answer := some (.reply s.lbp.address r none) }
    (s.cah.state = .empty → exec .libraryCustodyRequest s = .next (sendNotices (said (some .noCartridge) s)))
      ∧ (s.cah.state ≠ .empty → s.cah.holder = .library → exec .libraryCustodyRequest s = .next (sendNotices (said none s)))
      ∧ (s.cah.state ≠ .empty → s.cah.holder = .link → s.cah.question.isSome = true →
          exec .libraryCustodyRequest s = .next (sendNotices (said (some .questionPending) s)))
      ∧ (s.cah.state ≠ .empty → s.cah.holder = .link → s.cah.question = none → s.dlp.queue ≠ [] →
          exec .libraryCustodyRequest s = .next (sendNotices (said (some .laterMediumWork) s)))
      ∧ (s.cah.state = .cleaning → s.cah.holder = .link → s.cah.question = none → s.dlp.queue = [] →
          exec .libraryCustodyRequest s = .next (sendNotices (said (some .laterCleaning) s)))
      ∧ (s.cah.state ≠ .empty → s.cah.state ≠ .cleaning → s.cah.holder = .link → s.cah.question = none → s.dlp.queue = [] →
          (s.cah.linkPolicy = .grant → exec .libraryCustodyRequest s = .next (sendNotices (said none { s with
              cah.holder := .library, cah.grace := none, events := s.events.modify 6 EventFlags.latch })))
          ∧ (s.cah.linkPolicy = .refuse → exec .libraryCustodyRequest s = .next (sendNotices (said (some .custodyRefused) s)))
          ∧ (s.cah.linkPolicy = .ask → exec .libraryCustodyRequest s = .next (sendNotices (said (some .questionPosted) { s with
              cah.question := some { requester := .library, timer := 0, tag := none }
              events := s.events.modify 7 EventFlags.latch
              out := if s.dlp.link = .up then s.out ++ [.custodyAsked .library] else s.out }))))
      ∧ (∀ (b : Byte) (q : Question), s.cah.holder = .library → s.cah.question = some q → q.requester = .link → q.tag = none →
          (b = 2#8 → exec (.libraryCustodyAnswer b) s = .next (sendNotices (said none { s with
            cah.question := none, lbp.questionFlag := false })))
          ∧ (b = 1#8 → exec (.libraryCustodyAnswer b) s = .next (sendNotices (said none { s with
            cah.question := none
            lbp.questionFlag := false
            cah.holder := .link
            cah.grace := if s.dlp.link = .up then none else some 0
            events := s.events.modify 6 EventFlags.latch }))))
      ∧ (∀ (b : Byte) (q : Question) (x : Tag), s.cah.holder = .library → s.cah.question = some q → q.requester = .link →
          q.tag = some x → s.dlp.link = .up →
          (b = 2#8 → exec (.libraryCustodyAnswer b) s = .next (sendNotices (said none { s with
            cah.question := none
            lbp.questionFlag := false
            dlp.tags := s.dlp.tags.filter (· ≠ x)
            out := s.out ++ [.reply x (senseReply .custodyRefused)] })))
          ∧ (b = 1#8 → exec (.libraryCustodyAnswer b) s = .next (sendNotices (said none { s with
            cah.question := none
            lbp.questionFlag := false
            cah.holder := .link
            cah.grace := none
            events := s.events.modify 6 EventFlags.latch
            dlp.tags := s.dlp.tags.filter (· ≠ x)
            out := s.out ++ [.reply x goodReply] }))))
      ∧ (∀ (q : Question) (x : Tag), s.cah.state ≠ .empty → s.cah.holder = .library → s.cah.question = some q → q.requester = .link →
          q.tag = some x → s.dlp.link = .up →
          exec .custodyRelease s = .next (sendNotices (said none { s with
            cah.question := none
            lbp.questionFlag := false
            cah.holder := .link
            cah.grace := none
            events := s.events.modify 6 EventFlags.latch
            dlp.tags := s.dlp.tags.filter (· ≠ x)
            out := s.out ++ [.reply x goodReply] })))
      ∧ (∀ q : Question, s.cah.state ≠ .empty → s.cah.holder = .library → s.cah.question = some q → q.requester = .link →
          q.tag = none →
          exec .custodyRelease s = .next (sendNotices (said none { s with
            cah.question := none
            lbp.questionFlag := false
            cah.holder := .link
            cah.grace := if s.dlp.link = .up then none else some 0
            events := s.events.modify 6 EventFlags.latch })))
      ∧ (∀ b : Byte, b ≠ 1#8 → b ≠ 2#8 → exec (.libraryCustodyAnswer b) s = .next (sendNotices (said (some .badValue) s)))
      ∧ (∀ b : Byte, b = 1#8 ∨ b = 2#8 → s.cah.holder = .link →
          exec (.libraryCustodyAnswer b) s = .next (sendNotices (said (some .noCustody) s)))
      ∧ (s.cah.state ≠ .empty → s.cah.holder = .library → s.cah.question = none →
          exec .custodyRelease s = .next (sendNotices (said none { s with
            cah.holder := .link
            cah.grace := if s.dlp.link = .up then none else some 0
            events := s.events.modify 6 EventFlags.latch })))
      ∧ (s.cah.state ≠ .empty → s.cah.holder = .link → exec .custodyRelease s = .next (sendNotices (said (some .noCustody) s)))
      ∧ (∀ (p : Policy) (b : Byte), b.toNat = policyCode p →
          exec (.setLibraryPolicy b) s = .next (said none { s with pst.libraryPolicy := p }))
      ∧ (∀ b : Byte, b = 0#8 ∨ 4 ≤ b.toNat → exec (.setLibraryPolicy b) s = .next (said (some .badValue) s))

/-- CUSTODY_QUESTION_TIMEOUT ends a posted question, clears the question flag and answers a waiting Data Link request Custody
Refused; with no question it changes nothing. GRACE_TIMEOUT, while the timer runs and the Data Link holds custody, returns
custody to the Library Port, ends a question of the library and latches Custody Changed; with no timer running it changes
nothing. The timeouts are events not tested against the count (log entry 1), and one that nothing waits for changes nothing (log
entry 2). (R148, R149; the model's choices: log 1 and 2.) -/
def Obligations.CustodyTimersSettle : Prop :=
  ∀ s : State,
    (s.cah.question = none → exec .custodyQuestionTimeout s = .next (sendNotices s))
      ∧ (∀ q : Question, s.cah.question = some q → q.tag = none → exec .custodyQuestionTimeout s =
          .next (sendNotices { s with cah.question := none, lbp.questionFlag := false }))
      ∧ (∀ (q : Question) (t : Tag), s.cah.question = some q → q.tag = some t → s.dlp.link = .up →
          exec .custodyQuestionTimeout s = .next (sendNotices { s with
            cah.question := none
            lbp.questionFlag := false
            dlp.tags := s.dlp.tags.filter (· ≠ t)
            out := s.out ++ [.reply t (senseReply .custodyRefused)] }))
      ∧ (s.cah.grace = none → exec .graceTimeout s = .next (sendNotices s))
      ∧ (s.cah.grace ≠ none → s.cah.holder = .link → (∀ q : Question, s.cah.question = some q → q.requester = .library ∧ q.tag = none) →
          exec .graceTimeout s = .next (sendNotices { s with
            cah.grace := none
            cah.holder := .library
            cah.question := none
            lbp.questionFlag := if s.cah.question = none then s.lbp.questionFlag else false
            events := s.events.modify 6 EventFlags.latch }))

/-- In LISTENING: each order is answered Drive Faulted in FAULTED and Becoming Ready in the other conditions but READY. In READY,
Thread is answered GOOD in THREADED and THREADING, No Cartridge in EMPTY, and in NEGOTIATED and HELD for a fit cartridge with no
queue GOOD with the SEAT LOCK push begun; Unthread is answered GOOD in SEATED, NEGOTIATED and HELD, No Cartridge in EMPTY, busy
in UNTHREADING and EJECTING, later while medium work waits, and in THREADED with nothing unwritten GOOD with the unthread begun;
Eject is answered No Custody without custody, No Cartridge in EMPTY, and in NEGOTIATED and HELD GOOD with the eject push begun.
Becoming Ready is the answer for an Eject of a cleaning cartridge that waits in NEGOTIATED too, which R159 lets its holder
eject: that is the model's choice (log entry 48). (R136, R141, R142, R145, R180, R183, R188; the model's choices: log 31 and
48.) -/
def Obligations.LibraryOrdersAreAnsweredByTheCartridgeState : Prop :=
  ∀ s : State, s.lbp.line = .listening →
    let said (r : Option Reason) (x : State) : State :=
      { x with lbp.line := .answering, lbp.answer := some (.reply s.lbp.address r none) }
    (∀ c : Instr, c = .libraryThread ∨ c = .libraryUnthread ∨ c = .libraryEject →
        (s.frg.condition = .faulted → exec c s = .next (finish (said (some .driveFaulted) s)))
        ∧ (s.frg.condition ≠ .faulted → s.frg.condition ≠ .ready → exec c s = .next (finish (said (some .becomingReady) s))))
      ∧ (s.frg.condition = .ready →
          (s.cah.state = .threaded ∨ s.cah.state = .threading → exec .libraryThread s = .next (finish (said none s)))
          ∧ (s.cah.state = .empty → exec .libraryThread s = .next (finish (said (some .noCartridge) s)))
          ∧ (s.cah.state = .negotiated ∨ s.cah.state = .held → cleaningCartridge s = false → s.cah.mode ≠ some .incompatible →
              s.dlp.queue = [] → s.cah.stack = [] →
              exec .libraryThread s = .next (finish (said none { s with
                cah.state := .threading
                cah.mediaOp := some { kind := .thread, orderer := .library, force := false }
                cah.unwind := none
                cah.stageWork := some { stage := .seatLock, push := true, attempt := 1, timer := 0 } })))
          ∧ (s.cah.state = .seated ∨ s.cah.state = .negotiated ∨ s.cah.state = .held →
              exec .libraryUnthread s = .next (finish (said none s)))
          ∧ (s.cah.state = .empty → exec .libraryUnthread s = .next (finish (said (some .noCartridge) s)))
          ∧ (s.cah.state = .unthreading ∨ s.cah.state = .ejecting →
              exec .libraryUnthread s = .next (finish (said (some .operationInHand) s)))
          ∧ (s.cah.state = .threaded → s.dlp.queue ≠ [] → exec .libraryUnthread s = .next (finish (said (some .laterMediumWork) s)))
          ∧ (s.cah.state = .threaded → s.dlp.queue = [] → s.wch.report = none → s.wch.endOfMediumStop = false →
              suspendedSlots s = false → writeSideEmpty s = true → writerBusy s = false →
              exec .libraryUnthread s = .next (finish (beginUnthread (said none
                { s with cah.mediaOp := some { kind := .unthread, orderer := .library, force := false } }))))
          ∧ (s.cah.holder = .link → exec .libraryEject s = .next (finish (said (some .noCustody) s)))
          ∧ (s.cah.holder = .library → s.cah.state = .negotiated ∨ s.cah.state = .held →
              exec .libraryEject s = .next (finish (said none { s with
                cah.state := .ejecting
                cah.pushing := true
                cah.mediaOp := some { kind := .eject, orderer := .library, force := false } })))
          ∧ (s.cah.holder = .library → s.cah.state = .empty → exec .libraryEject s = .next (finish (said (some .noCartridge) s))))

/-- In FAULTED a medium command ends with the faulted answer. For Write Records, Write Filemarks, Flush and the read-type commands
that begin at once: CLEANING gives Cleaning Runs; a cartridge not threaded Not Threaded; a Report Pending is answered and
cleared; the End of Medium stop answers End of Medium with the records held; then WRITE SUSPENDED refuses the write-type
commands and Flush, a protected switch gives Write Protected, another READ-ONLY cause Read-Only Medium, and unwritten data held
by WRITE SUSPENDED refuses the read-type commands. That refusals carry the command's results is the model's reading (log entry
31). (R79, R82, R83, R99, R188; the model's choices: log 31.) -/
def Obligations.MediumCommandsMeetTheirTestsInOrder : Prop :=
  ∀ (tag : Tag) (c : MedCmd) (s : State),
    (s.frg.condition = .faulted → beginCommand tag c s = endHead (faultedBlock s) s)
      ∧ (HeadFree tag s → writesTape c = true ∨ readsTape c = true ∨ c = .flush →
        (s.cah.state = .cleaning → beginCommand tag c (taken tag c s) = answered tag c (.sense (sense .cleaningRuns)) s)
        ∧ (s.cah.state ≠ .cleaning → s.cah.state ≠ .threaded →
            beginCommand tag c (taken tag c s) = answered tag c (.sense (sense .notThreaded)) s)
        ∧ (∀ r : Report, s.cah.state = .threaded → s.wch.report = some r → beginCommand tag c (taken tag c s) =
            answered tag c (.sense (reportSense r (0 < r.held))) { s with wch.report := none })
        ∧ (s.cah.state = .threaded → s.wch.report = none → s.wch.endOfMediumStop = true → beginCommand tag c (taken tag c s) =
            answered tag c (.sense { sense .endOfMedium with count := some (held s) }) s)
        ∧ (s.cah.state = .threaded → s.wch.report = none → s.wch.endOfMediumStop = false →
            (s.cah.mode = some .writeSuspended → c = .flush ∨ writesTape c = true →
              beginCommand tag c (taken tag c s) = answered tag c (.sense (sense .stWriteSuspended)) s)
            ∧ (s.cah.mode = some (.readOnly .writeProtected) → writesTape c = true →
              beginCommand tag c (taken tag c s) = answered tag c (.sense (sense .writeProtected)) s)
            ∧ (s.cah.mode = some (.readOnly .level3) ∨ s.cah.mode = some (.readOnly .cmUnreadable) →
              writesTape c = true →
              beginCommand tag c (taken tag c s) = answered tag c (.sense (sense .readOnlyMedium)) s)
            ∧ (suspendedSlots s = true → readsTape c = true →
              beginCommand tag c (taken tag c s) = answered tag c (.sense { sense .stWriteSuspended with retry := true }) s)))

/-- On a threaded READ/WRITE tape with no report and no End of Medium stop. With an empty write side: at the next object of a valid
directory, past object 0 and with no unended record, the append point is the EOD position (next DSN after the last, next object
and next place the EOD position's, the read side dropped and counted). At Position 0 the directory, the EOD position and
Filemarks Committed take their empty values and EOD Current is cleared; while the writer is busy the command waits for the tape.
Elsewhere, with Directory Valid set: where a slot of the read ring holds the object, is known to be the one it lies in, and the
filemarks below it are known, the overwrite begins there: the entries before the object and their bytes are carried, Next DSN is
that data set's, Next Object the Position, the EOD position and Filemarks Committed are those before it, no directory entry lies
on a later wrap, and the next place is where it began; where none holds it, a header scan for it begins with directory, EOD
position and Position kept. Write Records then receives its records, and Write Filemarks puts its filemarks into the engine's
intake. With data on the write side both go on where it ends. A bad record count, or more than 256 filemarks, is answered Bad
Count. The note of the EOD position and of a directory entry that the last data set ends with an unended part, which the
overwrite sets and the append tests, is the model's own (log entry 6). That the wait is for the tape, and which place a data set
began at, are the model's readings (log entries 20, 24 and 31). (R18, R19, R47, R48, R79, R80, R82; the model's choices: log 6,
20, 24 and 31.) -/
def Obligations.WriteCommandsSetTheAppendPoint : Prop :=
  ∀ (tag : Tag) (unbuffered sync : Bool) (ls : List Nat) (n : Nat) (s : State), Served tag s → s.cah.mode = some .readWrite →
    s.wch.endOfMediumStop = false →
    let w := { taken tag (.writeRecords unbuffered ls) s with dlp.run.lengths := ls }
    let f := taken tag (.writeFilemarks sync n) s
    (writeSideEmpty s = true → badRecordCount ls = false → firstBadLength ls = none → appendRefused s = false →
        (s.fmc.position = s.fmc.eod.nextObject → s.fmc.position ≠ 0 → s.fmc.eod.unended = false → s.fmc.directoryValid = true →
          let t := appendSet (appendAtEod w)
          exec (.writeRecords tag unbuffered ls) s = .next (finish t)
            ∧ t.dlp.run.phase = .receiving ∧ t.dlp.run.lengths = ls ∧ t.dbf.direction = .write
            ∧ (t.fmc.nextDsn = match s.fmc.eod.lastDsn with | some d => d + 1 | none => 0)
            ∧ t.fmc.nextObject = s.fmc.eod.nextObject ∧ (s.wch.eodPlan = none → t.wch.nextPlace = ⟨s.fmc.eod.wrap, s.fmc.eod.lpos⟩)
            ∧ t.dbf.readRing = [] ∧ t.dbf.readSideDrops = s.dbf.readSideDrops + s.dbf.readRing.length ∧ t.dbf.readAheadActive = false
            ∧ t.fmc.position = s.fmc.position ∧ t.fmc.accepted = s.fmc.accepted ∧ t.fmc.directory = s.fmc.directory
            ∧ t.fmc.eod = s.fmc.eod ∧ t.wch.eodCurrent = s.wch.eodCurrent ∧ t.out = s.out ∧ t.dlp.tags = s.dlp.tags ++ [tag])
        ∧ (s.fmc.position = 0 → writerBusy s = true →
          exec (.writeRecords tag unbuffered ls) s = .next (finish (setPhase .waitTape w)))
        ∧ (s.fmc.position = 0 → writerBusy s = false →
          let t := appendSet (overwriteFromBot w)
          exec (.writeRecords tag unbuffered ls) s = .next (finish t)
            ∧ t.dlp.run.phase = .receiving ∧ t.dbf.direction = .write ∧ t.fmc.directory = [] ∧ t.fmc.eod = EodPos.empty
            ∧ t.fmc.filemarks = 0 ∧ t.fmc.nextDsn = 0 ∧ t.fmc.nextObject = 0 ∧ t.fmc.directoryValid = true
            ∧ t.wch.eodCurrent = false ∧ t.wch.nextPlace = ⟨0, 1000000⟩ ∧ t.dbf.readRing = [] ∧ t.fmc.position = 0)
        ∧ (s.fmc.position ≠ 0 → s.fmc.directoryValid = true → writerBusy s = false →
            s.fmc.position ≠ s.fmc.eod.nextObject ∨ s.fmc.eod.unended = true →
          (∀ (d : Slot) (m : Nat) (p : Place), slotHolding s.fmc.position s = some d → knownHolder s.fmc.position d s = true →
            knownMarks d.dsn s = some m → d.startPlace = some p →
            let first := d.firstObject.getD 0
            let kept := entriesBelow s.fmc.position first d.entries
            let t := overwriteAt d.dsn first m s.fmc.position (unendedBefore d.dsn s) d.entries d.payload p w
            exec (.writeRecords tag unbuffered ls) s = .next (finish t)
              ∧ t.dlp.run.phase = .receiving ∧ t.dbf.direction = .write ∧ t.dbf.readRing = [] ∧ t.fmc.position = s.fmc.position
              ∧ t.cpe.carryEntries = kept ∧ t.cpe.carryPayload = d.payload.take (sumStored kept)
              ∧ (first = s.fmc.position → kept = [])
              ∧ t.fmc.nextDsn = d.dsn ∧ t.fmc.nextObject = s.fmc.position ∧ t.fmc.filemarks = m
              ∧ t.fmc.eod = ⟨p.wrap, p.lpos, if d.dsn = 0 then none else some (d.dsn - 1), first,
                  unendedBefore d.dsn s || match d.entries with | e :: _ => !e.beginsObject | [] => false⟩
              ∧ (∀ e ∈ t.fmc.directory, e.wrap ≤ p.wrap) ∧ t.wch.nextPlace = p ∧ t.wch.eodCurrent = false
              ∧ t.fmc.accepted = s.fmc.accepted ∧ t.fmc.committed = s.fmc.committed ∧ t.out = s.out)
          ∧ (∀ e : DirEntry, slotHolding s.fmc.position s = none → entryFor s.fmc.position s.fmc.directory = some e →
            let t := setOverwrite s.fmc.position w
            exec (.writeRecords tag unbuffered ls) s = .next (finish t)
              ∧ t.dlp.run.phase = .appendScan ∧ t.rch.duty = .scan ∧ t.dbf.readRing = []
              ∧ t.rch.scan.map (fun c => (c.goal, c.due)) = some (.append s.fmc.position 0, some (dueAtStart e))
              ∧ t.fmc.directory = s.fmc.directory ∧ t.fmc.eod = s.fmc.eod ∧ t.fmc.position = s.fmc.position ∧ t.out = s.out)))
      ∧ (writeSideEmpty s = true → n ≤ 256 → appendRefused s = false →
        (s.fmc.position = s.fmc.eod.nextObject → s.fmc.position ≠ 0 → s.fmc.eod.unended = false → s.fmc.directoryValid = true →
          let t := appendSet (appendAtEod f)
          exec (.writeFilemarks tag sync n) s = .next (finish t) ∧ t.dlp.run.phase = .placing
            ∧ t.cpe.intake = s.cpe.intake ++ List.replicate n (.filemark tag) ∧ t.dbf.direction = .write
            ∧ t.fmc.nextObject = s.fmc.eod.nextObject ∧ (s.wch.eodPlan = none → t.wch.nextPlace = ⟨s.fmc.eod.wrap, s.fmc.eod.lpos⟩)
            ∧ t.out = s.out)
        ∧ (s.fmc.position = 0 → writerBusy s = false →
          let t := appendSet (overwriteFromBot f)
          exec (.writeFilemarks tag sync n) s = .next (finish t) ∧ t.dlp.run.phase = .placing
            ∧ t.cpe.intake = s.cpe.intake ++ List.replicate n (.filemark tag) ∧ t.fmc.eod = EodPos.empty))
      ∧ (writeSideEmpty s = false →
        (badRecordCount ls = false → firstBadLength ls = none →
          exec (.writeRecords tag unbuffered ls) s = .next (finish { w with dbf.direction := .write, dlp.run.phase := .receiving }))
        ∧ (n ≤ 256 → exec (.writeFilemarks tag sync n) s = .next (finish { f with
            dbf.direction := .write
            cpe.intake := s.cpe.intake ++ List.replicate n (.filemark tag)
            dlp.run.phase := .placing })))
      ∧ (badRecordCount ls = true → exec (.writeRecords tag unbuffered ls) s =
          .next (finish (answered tag (.writeRecords unbuffered ls) (.sense (sense .badCount)) s)))
      ∧ (256 < n → exec (.writeFilemarks tag sync n) s =
          .next (finish (answered tag (.writeFilemarks sync n) (.sense (sense .badCount)) s)))

/-- On a link that is UP: CREDIT raises the receive credits, at most to 1,024 with a Link Error beyond. A DATA-OUT with no credit
outstanding is discarded with a Link Error; with a credit, for the Write Records at the head that receives, its bytes fill a
staging buffer, the credit is spent and Link Bytes rise; a payload of a part of the record waits for the rest, and one of the
whole record makes the record Accepted, with Records Accepted and Position up by one and the record handed to the engine. A
payload above the agreed size is a rejected frame with a Link Error (the model's reading, log entry 39). (R50, R51, R80, R165,
R169; the model's choices: log 39.) -/
def Obligations.CreditsAndDataOut : Prop :=
  (∀ (n : BitVec 16) (s : State), s.dlp.link = .up →
    (s.dlp.receiveCredits + n.toNat ≤ 1024 → exec (.receiveCredit n) s =
        .next (sendNotices { s with dlp.crcRun := 0, dlp.receiveCredits := s.dlp.receiveCredits + n.toNat }))
      ∧ (1024 < s.dlp.receiveCredits + n.toNat → exec (.receiveCredit n) s = .next (sendNotices { s with
          dlp.crcRun := 0
          dlp.receiveCredits := 1024
          dlp.linkErrors := s.dlp.linkErrors + 1
          events := s.events.modify 24 EventFlags.latch })))
  ∧ (∀ (tag : Tag) (p : List Byte) (s : State), s.dlp.link = .up → 1 ≤ p.length → p.length ≤ s.dlp.agreed →
    (s.dlp.creditsOut = 0 → exec (.dataOut tag p) s = .next (finish { s with
        dlp.crcRun := 0
        dlp.linkErrors := s.dlp.linkErrors + 1
        events := s.events.modify 24 EventFlags.latch }))
      ∧ (∀ (u : Bool) (l rest : List Nat) (len : Nat) (qs : List QEntry), 0 < s.dlp.creditsOut →
          s.dlp.queue = ⟨tag, .writeRecords u l⟩ :: qs → s.dlp.run.phase = .receiving →
          s.dlp.run.lengths = len :: rest → s.dlp.run.got = 0 → s.dlp.run.mute = false →
          s.cpe.intake.all (fun x => !x.partialOf tag) = true →
          (p.length < len → exec (.dataOut tag p) s = .next (finish { s with
            dlp.crcRun := 0
            dlp.creditsOut := s.dlp.creditsOut - 1
            dlp.linkBytes := s.dlp.linkBytes + p.length
            dlp.run.got := p.length
            dbf.staging := s.dbf.staging ++ [⟨tag, p⟩]
            cpe.intake := s.cpe.intake ++ [.record tag len p.length 0 none false false] }))
          ∧ (p.length = len → exec (.dataOut tag p) s = .next (finish { s with
            dlp.crcRun := 0
            dlp.creditsOut := s.dlp.creditsOut - 1
            dlp.linkBytes := s.dlp.linkBytes + p.length
            dlp.run.lengths := rest
            dlp.run.got := 0
            dlp.run.accepted := s.dlp.run.accepted + 1
            fmc.accepted := s.fmc.accepted + 1
            fmc.position := s.fmc.position + 1
            dbf.staging := s.dbf.staging ++ [⟨tag, p⟩]
            cpe.intake := s.cpe.intake ++ [.record tag len len 0 none true false] }))))
  ∧ (∀ (tag : Tag) (p : List Byte) (s : State), s.dlp.link = .up → s.dlp.agreed < p.length → exec (.dataOut tag p) s =
      .next (sendNotices { s with
        dlp.crcRun := 0
        dlp.linkErrors := s.dlp.linkErrors + 1
        events := s.events.modify 24 EventFlags.latch }))

/-- On a threaded tape with nothing to report, FLUSH with an empty write side is answered GOOD, or Early Warning while it holds;
with data it demands a flush and waits for the tape to stop. DISCARD_BUFFER outside CLEANING empties both rings, the staging
FIFO, the engine's intake, the rewrite queue and a report, and counts the read-side slots as dropped. Where the write side held
something, the held records are counted as discarded and Position, the next DSN and the next object return to the EOD position;
where it was empty, Format Control, the Position included, is unchanged. The command is answered GOOD with the records discarded
when the writer is not busy and waits for its EOD frame otherwise (log entry 35). In CLEANING it is answered Cleaning Runs, with
the result 'discarded 0', which a refusal carries by the model's reading (log entry 31). (R20, R60, R83, R84, R164; the model's
choices: log 31 and 35.) -/
def Obligations.FlushAndDiscardBuffer : Prop :=
  ∀ (tag : Tag) (s : State),
    (Served tag s → s.wch.endOfMediumStop = false → s.cah.mode ≠ some .writeSuspended →
        (writeSideEmpty s = true → exec (.flush tag) s = .next (finish (answered tag .flush
          (if s.fmc.earlyWarning then .sense (sense .earlyWarning) else .good) s)))
        ∧ (writeSideEmpty s = false → exec (.flush tag) s = .next (finish (setPhase .waitStop (demandFlush (taken tag .flush s))))
            ∧ (demandFlush (taken tag .flush s)).dbf.flush = true))
      ∧ (HeadFree tag s → s.cah.state ≠ .cleaning →
        let t := takeDiscard (taken tag .discardBuffer s)
        exec (.discardBuffer tag) s = .next (finish t)
          ∧ t.dbf.writeRing = [] ∧ t.dbf.staging = [] ∧ t.dbf.readRing = [] ∧ t.cpe.intake = [] ∧ t.cpe.carryEntries = []
          ∧ t.cpe.closeAfter = none ∧ t.dbf.flush = false ∧ t.wch.report = none ∧ t.wch.endOfMediumStop = false
          ∧ t.wch.rewriteQueue = [] ∧ t.wch.abandon = none
          ∧ t.dbf.readSideDrops = s.dbf.readSideDrops + s.dbf.readRing.length
          ∧ (writeSideEmpty s = true → t.fmc = s.fmc)
          ∧ (writeSideEmpty s = false → t.fmc.discarded = s.fmc.discarded + held s ∧ t.fmc.position = s.fmc.eod.nextObject
            ∧ (t.fmc.nextDsn = match s.fmc.eod.lastDsn with | some d => d + 1 | none => 0)
            ∧ t.fmc.nextObject = s.fmc.eod.nextObject ∧ t.fmc.accepted = s.fmc.accepted ∧ t.fmc.committed = s.fmc.committed)
          ∧ (writerBusy t = false → t.out.getLast? = some (.reply tag ⟨.good, .discarded (held s)⟩) ∧ t.dlp.queue = [])
          ∧ (writerBusy t = true → t.dlp.run.phase = .waitFlush ∧ t.dlp.queue = [⟨tag, .discardBuffer⟩]))
      ∧ (HeadFree tag s → s.cah.state = .cleaning →
        exec (.discardBuffer tag) s = .next (finish (replied tag ⟨.sense (sense .cleaningRuns), .discarded 0⟩ s)))

/-- On a threaded tape with an empty write side, whether or not the writer still writes EOD, READ_RECORDS of 1 to 256 records of 1
to 2,097,152 bytes makes read-ahead active and begins; a bad count is answered Bad Count and a bad length Bad Length.
DATA_IN_SEND, with a receive credit and a part that holds a whole record of the asked length, sends it in one DATA-IN marked end
of record and moves Position on, or sends the agreed size and goes on, and the engine's window follows the drain pointer: it is
the bytes of the slot before it; with no receive credit nothing is sent. (R25, R49, R56, R99, R100, R169.) -/
def Obligations.ReadRecordsDeliversInFrames : Prop :=
  (∀ (tag : Tag) (l n : Nat) (s : State), Served tag s → s.wch.endOfMediumStop = false → suspendedSlots s = false →
    writeSideEmpty s = true →
    (1 ≤ n → n ≤ 256 → 1 ≤ l → l ≤ 2097152 → s.dbf.direction ≠ .write → (s.dbf.direction = .read → s.dbf.readRing ≠ []) →
        exec (.readRecords tag l n) s = .next (finish { taken tag (.readRecords l n) s with
          dbf.readAheadActive := true
          dlp.run.phase := .reading
          dlp.run.startPosition := s.fmc.position }))
      ∧ (n = 0 ∨ 256 < n → exec (.readRecords tag l n) s =
          .next (finish (answered tag (.readRecords l n) (.sense (sense .badCount)) s)))
      ∧ (1 ≤ n → n ≤ 256 → l = 0 ∨ 2097152 < l → exec (.readRecords tag l n) s =
          .next (finish (answered tag (.readRecords l n) (.sense (sense .badLength)) s))))
  ∧ (∀ (tag : Tag) (l n : Nat) (qs : List QEntry) (d : Slot) (p : Part) (bs : List Byte) (s : State),
    s.dlp.queue = ⟨tag, .readRecords l n⟩ :: qs → s.dlp.run.phase = .reading → s.dlp.link = .up → 0 < s.dlp.receiveCredits →
    s.dlp.run.aborting = false → pointer s = .part d p bs false → p.ends = true → s.dlp.run.sent = 0 → s.dlp.run.chunk = [] →
    s.dlp.run.partDone = 0 → s.dlp.run.decoded = 0 → bs.length = p.ulen → 0 < l →
    (l = p.ulen → l ≤ s.dlp.agreed → exec .dataInSend s = .next (finish (syncWindow { s with
        out := s.out ++ [.dataIn tag true bs]
        dlp.receiveCredits := s.dlp.receiveCredits - 1
        dlp.linkBytes := s.dlp.linkBytes + p.ulen
        dlp.run.delivered := s.dlp.run.delivered + 1
        fmc.position := s.fmc.position + 1 })))
      ∧ (l = p.ulen → s.dlp.agreed < l → 0 < s.dlp.agreed → exec .dataInSend s = .next (finish (syncWindow { s with
        out := s.out ++ [.dataIn tag false (bs.take s.dlp.agreed)]
        dlp.receiveCredits := s.dlp.receiveCredits - 1
        dlp.linkBytes := s.dlp.linkBytes + s.dlp.agreed
        dlp.run.sent := s.dlp.agreed
        dlp.run.partDone := s.dlp.agreed
        dlp.run.decoded := s.dlp.agreed }))))
  ∧ (∀ (d : Slot) (s : State), drainingSlot s = some d → s.cpe.engine = .unpacking → s.cpe.checked = true →
    syncWindow s = { s with cpe.window := bytesBefore (0 < s.dlp.run.decoded) s.fmc.position (slotObjects d)
      ++ (match pointer s with
          | .part _ _ bs _ => bs.take s.dlp.run.partDone
          | _ => []) })
  ∧ (∀ s : State, s.dlp.receiveCredits = 0 → exec .dataInSend s = .next (finish s))

/-- On a threaded tape with an empty write side: a Space of count 0 is answered GOOD, a backward Space at object 0 Beginning with
its count as residue, a count above 16,777,215 Bad Count, a backward Space to EOD Bad Direction, a target above 2^48 - 1 Bad
Object. With a valid directory, nothing in the read ring and the tape at rest: a Locate at or past the end of the data and a
Space to EOD seek the EOD place; a Locate before it whose directory entry exists begins a header scan; a Space from inside a
wrap begins a scan that counts from the Position. Where the stopping point lies in a usable slot of the ring, a Locate and a
Space are served from the buffer: the older slots leave, that slot is DRAINING with its decode to be made afresh, Position is
the stopping point, and the tape, the Read-Ahead state and the drops stay. While the writer is busy a Locate waits for the tape.
With Immediate a Locate is answered GOOD before its seek and stays at the head; the end of a command so answered keeps outcome
and Position as the Last Immediate Result and latches Operation Complete. Position otherwise changes only when the search ends.
That a count of 0 and object 0 are answered after the tests and the flush is the model's reading (log entries 31 and 32). (R58,
R98, R99, R102, R103, R105; the model's choices: log 31 and 32.) -/
def Obligations.SpaceAndLocateSearch : Prop :=
  (∀ (tag : Tag) (kind : SpaceKind) (dir : Dir) (n target : Nat) (s : State), Served tag s → s.wch.endOfMediumStop = false →
    suspendedSlots s = false → writeSideEmpty s = true → writerBusy s = false → s.dbf.direction = .neutral →
    (¬(kind = .eod ∧ dir = .backward) → exec (.space tag kind dir 0 false) s =
        .next (finish (answered tag (.space kind dir 0 false) .good s)))
      ∧ (kind ≠ .eod → s.fmc.position = 0 → 0 < n → n ≤ 16777215 → exec (.space tag kind .backward n false) s =
        .next (finish (answered tag (.space kind .backward n false) (.sense { sense .beginning with info := some n }) s)))
      ∧ (16777215 < n → exec (.space tag kind dir n false) s =
        .next (finish (answered tag (.space kind dir n false) (.sense (sense .badCount)) s)))
      ∧ (n ≤ 16777215 → exec (.space tag .eod .backward n false) s =
        .next (finish (answered tag (.space .eod .backward n false) (.sense (sense .badDirection)) s)))
      ∧ (281474976710655 < target → exec (.locate tag target false) s =
        .next (finish (answered tag (.locate target false) (.sense (sense .badObject)) s)))
      ∧ (target ≤ 281474976710655 → s.fmc.directoryValid = true → s.dbf.readRing = [] →
        s.moc.motion = .stopped → s.moc.operation = none →
        let t := locateWork target (taken tag (.locate target false) s)
        exec (.locate tag target false) s = .next (finish t)
          ∧ (s.fmc.eod.nextObject ≤ target → t.dlp.run.phase = .moving ∧ t.fmc.position = s.fmc.position
              ∧ t.moc.operation = some ⟨.toEod, some ⟨s.fmc.eod.wrap, s.fmc.eod.lpos⟩, [.seek], false⟩ ∧ t.out = s.out)
          ∧ (∀ e : DirEntry, target < s.fmc.eod.nextObject → entryFor target s.fmc.directory = some e →
              t.dlp.run.phase = .searching ∧ t.rch.duty = .scan ∧ t.fmc.position = s.fmc.position ∧ t.out = s.out
              ∧ t.moc.operation.map (fun op => op.work) = some .scanning
              ∧ t.rch.scan.map (fun c => c.goal) = some (.object target)))
      ∧ (n ≠ 0 → n ≤ 16777215 → s.fmc.directoryValid = true → s.dbf.readRing = [] → s.moc.motion = .stopped → s.moc.operation = none →
        (let t := spaceWork .eod .forward n (taken tag (.space .eod .forward n false) s)
         exec (.space tag .eod .forward n false) s = .next (finish t)
          ∧ t.dlp.run.phase = .moving ∧ t.fmc.position = s.fmc.position
          ∧ t.moc.operation = some ⟨.toEod, some ⟨s.fmc.eod.wrap, s.fmc.eod.lpos⟩, [.seek], false⟩ ∧ t.out = s.out)
        ∧ (∀ e : DirEntry, kind ≠ .eod → s.fmc.position < s.fmc.eod.nextObject → entryFor s.fmc.position s.fmc.directory = some e →
            e.object < s.fmc.position →
            let t := spaceWork kind dir n (taken tag (.space kind dir n false) s)
            exec (.space tag kind dir n false) s = .next (finish t)
              ∧ t.dlp.run.phase = .searching ∧ t.rch.duty = .scan ∧ t.fmc.position = s.fmc.position ∧ t.out = s.out
              ∧ t.moc.operation.map (fun op => op.work) = some .scanning
              ∧ t.rch.scan.map (fun c => c.goal) = some (.space kind dir n s.fmc.position false)))
      ∧ (target ≤ 281474976710655 → s.fmc.directoryValid = true → s.fmc.eod.nextObject ≤ target →
        s.moc.motion = .stopped → s.moc.operation = none →
        let t := locateWork target (answerEarly (taken tag (.locate target true) s))
        exec (.locate tag target true) s = .next (finish t)
          ∧ t.out = s.out ++ [.reply tag ⟨.good, .position s.fmc.position⟩] ∧ t.dlp.run.answered = true ∧ t.dlp.run.phase = .moving
          ∧ t.dlp.queue = [⟨tag, .locate target true⟩] ∧ t.dlp.tags = s.dlp.tags ++ [tag] ∧ t.rch.lastImmediate = s.rch.lastImmediate)
      ∧ (¬(kind = .eod ∧ dir = .backward) → exec (.space tag kind dir 0 true) s = .next (finish { heard s with
          dlp.tags := (s.dlp.tags ++ [tag]).filter (· ≠ tag)
          out := s.out ++ [.reply tag ⟨.good, .position s.fmc.position⟩]
          rch.lastImmediate := some ⟨.good, s.fmc.position⟩
          events := s.events.modify 8 EventFlags.latch })))
  ∧ (∀ (tag : Tag) (kind : SpaceKind) (dir : Dir) (n target : Nat) (d : Slot) (s : State), Served tag s → s.wch.endOfMediumStop = false →
    suspendedSlots s = false → writeSideEmpty s = true → s.dbf.direction ≠ .write → s.fmc.directoryValid = true →
    let served (q : Nat) (c : MedCmd) (o : OutcomeBlock) (t : State) : Prop := t.fmc = { s.fmc with position := q } ∧ t.moc = s.moc
      ∧ t.dbf.readRing.map (fun x => x.dsn) = (s.dbf.readRing.filter (fun x => d.dsn ≤ x.dsn)).map (fun x => x.dsn)
      ∧ t.dbf.readAheadActive = s.dbf.readAheadActive ∧ t.dbf.readSideDrops = s.dbf.readSideDrops
      ∧ (d.state = .ready → t.cpe.engine = .unpacking ∧ t.cpe.checked = false ∧ ∀ x ∈ t.dbf.readRing, x.dsn = d.dsn → x.state = .draining)
      ∧ t.out = s.out ++ [.reply tag ⟨o, resultsOf c 0 t⟩] ∧ t.dlp.queue = []
    (writerBusy s = false → target < s.fmc.eod.nextObject → target ≤ 281474976710655 → stopSlot target s = some d →
        let t := locateWork target (taken tag (.locate target false) s)
        d.unrecoverable = none ∧ d ∈ s.dbf.readRing ∧ exec (.locate tag target false) s = .next (finish t)
          ∧ served target (.locate target false) .good t)
      ∧ (∀ (q : Nat) (r : Option Reason) (residue : Nat), writerBusy s = false → 0 < n → n ≤ 16777215 → ¬(kind = .eod ∧ dir = .backward) →
          ¬(kind ≠ .eod ∧ dir = .backward ∧ s.fmc.position = 0) → pointerInRing s = true → ringWalk kind dir n s = some (q, r, residue) →
          stopSlot q s = some d →
          let t := spaceWork kind dir n (taken tag (.space kind dir n false) s)
          exec (.space tag kind dir n false) s = .next (finish t) ∧ served q (.space kind dir n false) (spaceOutcome r residue) t)
      ∧ (writerBusy s = true → target ≤ 281474976710655 →
          exec (.locate tag target false) s = .next (finish (setPhase .waitTape (taken tag (.locate target false) s)))))
  ∧ (∀ (o : OutcomeBlock) (q : QEntry) (rest : List QEntry) (s : State), s.dlp.queue = q :: rest → s.dlp.run.answered = true →
    s.dlp.run.mute = false →
    endHead o s = { s with
      dlp.queue := rest
      dlp.run := {}
      dlp.tags := s.dlp.tags.filter (· ≠ q.tag)
      rch.lastImmediate := some ⟨o, s.fmc.position⟩
      events := s.events.modify 8 EventFlags.latch })

/-- On a threaded tape with an empty write side and the buffer NEUTRAL: REWIND at BOT at rest sets Position 0, ends read-ahead and
is answered GOOD; elsewhere at rest it begins a seek to BOT, Position kept until it ends. With Immediate it is answered GOOD
first, and then either ends at BOT with Position 0 kept as the Last Immediate Result and Operation Complete latched, or begins
the seek and stays at the head. An Abort of a Rewind so answered leaves ABORTED with Position 0 as the Last Immediate Result,
latches the event and sends no second reply. REBUILD_DIRECTORY begins a Rebuild pass from BOT in SCAN, at the step the cap gives
as it begins, Format Control unchanged until it ends. (R15, R104, R105, R111, R116.) -/
def Obligations.RewindAndRebuildBegin : Prop :=
  (∀ (tag : Tag) (s : State), Served tag s → s.wch.endOfMediumStop = false → suspendedSlots s = false →
    writeSideEmpty s = true → writerBusy s = false → s.dbf.direction = .neutral → s.dbf.readRing = [] →
    (standsAtBot s = true → exec (.rewind tag false) s = .next (finish (answered tag (.rewind false) .good { s with
        fmc.position := 0
        dbf.readAheadActive := false
        rch.expected := some 0
        rch.nextDsn := some 0
        rch.resume := some botPlace })))
      ∧ (s.moc.motion = .stopped → s.moc.operation = none → s.moc.restsFor ≠ some botPlace →
        let t := rewindWork (taken tag (.rewind false) s)
        exec (.rewind tag false) s = .next (finish t)
          ∧ t.moc.operation = some ⟨.rewinding, some botPlace, [.seek], false⟩ ∧ t.moc.motion = .ramping
          ∧ t.dlp.run.phase = .moving ∧ t.dbf.readAheadActive = false ∧ t.fmc.position = s.fmc.position ∧ t.out = s.out)
      ∧ (s.moc.motion = .stopped → s.moc.operation = none →
        let t := beginRebuild (taken tag .rebuildDirectory s)
        exec (.rebuildDirectory tag) s = .next (finish t)
          ∧ t.rch.duty = .scan ∧ t.rch.rebuild = some { wasValid := s.fmc.directoryValid, step := scanStep s } ∧ t.dlp.run.phase = .rebuilding
          ∧ (t.moc.operation.map (fun op => (op.work, op.aim))) = some (.rebuilding, some botPlace)
          ∧ t.fmc = s.fmc ∧ t.out = s.out)
      ∧ (standsAtBot s = true → exec (.rewind tag true) s = .next (finish { heard s with
          fmc.position := 0
          dbf.readAheadActive := false
          rch.expected := some 0
          rch.nextDsn := some 0
          rch.resume := some botPlace
          dlp.tags := (s.dlp.tags ++ [tag]).filter (· ≠ tag)
          out := s.out ++ [.reply tag ⟨.good, .position s.fmc.position⟩]
          rch.lastImmediate := some ⟨.good, 0⟩
          events := s.events.modify 8 EventFlags.latch }))
      ∧ (s.moc.motion = .stopped → s.moc.operation = none → s.moc.restsFor ≠ some botPlace →
        let t := rewindWork (answerEarly (taken tag (.rewind true) s))
        exec (.rewind tag true) s = .next (finish t)
          ∧ t.moc.operation = some ⟨.rewinding, some botPlace, [.seek], false⟩ ∧ t.dlp.run.answered = true
          ∧ t.dlp.queue = [⟨tag, .rewind true⟩] ∧ t.out = s.out ++ [.reply tag ⟨.good, .position s.fmc.position⟩]))
  ∧ (∀ (tag named : Tag) (q : QEntry) (rest : List QEntry) (s : State), Open tag s → named ≠ tag → s.dlp.tags.contains named = true →
    s.cah.question = none → s.dlp.queue = q :: rest → q = ⟨named, .rewind true⟩ → s.dlp.run.mute = false → s.dlp.run.aborting = false →
    s.dlp.run.answered = true → s.dlp.run.phase = .moving →
    let t := abortHead (replied tag goodReply s)
    exec (.abort tag named) s = .next (finish t) ∧ t.rch.lastImmediate = some ⟨.aborted, 0⟩ ∧ t.dlp.queue = rest
      ∧ (s.events.length = 25 → (flagsOf 9 t.events).latched = true) ∧ t.out = s.out ++ [.reply tag goodReply])

/-- Commands that begin at once with no report. THREAD: GOOD in THREADED, No Cartridge in EMPTY, Incompatible Medium for such a
cartridge, and in NEGOTIATED and HELD the SEAT LOCK push begins. UNTHREAD: GOOD in SEATED, NEGOTIATED and HELD, No Cartridge in
EMPTY; in THREADED with nothing unwritten and the tape at rest the read side is dropped, uncounted, and a seek to BOT begins;
while the writer is busy it waits for the tape. With Force it clears a report in SEATED, NEGOTIATED, HELD and THREADED, and in
THREADED discards the write side, counts its records and unthreads, or waits for the EOD frame. EJECT: No Custody without
custody; in NEGOTIATED and HELD the eject push begins. QUEUE_HEAD_BEGINS begins the command at the head when none has begun, and
changes nothing otherwise (log entry 2). That the plain Unthread waits for the tape is the model's reading (log entry 31). (R76,
R136, R141, R142, R145, R171; the model's choices: log 2 and 31.) -/
def Obligations.MediaCommandsBegin : Prop :=
  (∀ (tag : Tag) (force : Bool) (s : State), HeadFree tag s → s.wch.report = none →
    (s.cah.state = .threaded → exec (.thread tag) s = .next (finish (answered tag .thread .good s)))
      ∧ (s.cah.state = .empty → exec (.thread tag) s = .next (finish (answered tag .thread (.sense (sense .noCartridge)) s)))
      ∧ (s.cah.state = .negotiated ∨ s.cah.state = .held → cleaningCartridge s = false → s.cah.mode ≠ some .incompatible →
          s.cah.stack = [] → exec (.thread tag) s = .next (finish { taken tag .thread s with
            dlp.run.phase := .threading
            cah.state := .threading
            cah.mediaOp := some { kind := .thread, orderer := .link tag, force := false }
            cah.unwind := none
            cah.stageWork := some { stage := .seatLock, push := true, attempt := 1, timer := 0 } }))
      ∧ (s.cah.state = .negotiated ∨ s.cah.state = .held → cleaningCartridge s = false → s.cah.mode = some .incompatible →
          exec (.thread tag) s = .next (finish (answered tag .thread (.sense (sense .incompatibleMedium)) s)))
      ∧ (s.cah.state = .seated ∨ s.cah.state = .negotiated ∨ s.cah.state = .held →
          exec (.unthread tag force) s = .next (finish (answered tag (.unthread force) .good s)))
      ∧ (s.cah.state = .empty →
          exec (.unthread tag force) s = .next (finish (answered tag (.unthread force) (.sense (sense .noCartridge)) s)))
      ∧ (s.cah.state = .threaded → s.wch.endOfMediumStop = false → suspendedSlots s = false → writeSideEmpty s = true →
          writerBusy s = false → s.dbf.direction = .neutral → s.moc.motion = .stopped → s.moc.operation = none →
          let t := unthreadFromHead .unthread tag false (taken tag (.unthread false) s)
          exec (.unthread tag false) s = .next (finish t)
            ∧ t.cah.state = .unthreading ∧ t.dlp.run.phase = .unthreading ∧ t.dbf.readRing = [] ∧ t.dbf.readSideDrops = s.dbf.readSideDrops
            ∧ t.cah.mediaOp = some { kind := .unthread, orderer := .link tag, force := false }
            ∧ t.moc.operation = some ⟨.unthreadRewind, some botPlace, [.seek], false⟩ ∧ t.fmc = s.fmc ∧ t.out = s.out)
      ∧ (s.cah.state = .threaded → s.dbf.direction = .neutral → writeSideEmpty s = true → s.wch.endOfMediumStop = false →
          suspendedSlots s = false → writerBusy s = true →
          exec (.unthread tag false) s = .next (finish (setPhase .waitTape (taken tag (.unthread false) s))))
      ∧ (s.cah.holder = .library → exec (.eject tag) s = .next (finish (answered tag .eject (.sense (sense .noCustody)) s)))
      ∧ (s.cah.holder = .link → s.cah.state = .negotiated ∨ s.cah.state = .held →
          exec (.eject tag) s = .next (finish { taken tag .eject s with
            dlp.run.phase := .ejecting
            cah.state := .ejecting
            cah.pushing := true
            cah.mediaOp := some { kind := .eject, orderer := .link tag, force := false } })))
  ∧ (∀ (tag : Tag) (s : State), HeadFree tag s →
    (s.cah.state = .seated ∨ s.cah.state = .negotiated ∨ s.cah.state = .held →
        exec (.unthread tag true) s = .next (finish (answered tag (.unthread true) .good { s with wch.report := none })))
      ∧ (s.cah.state = .threaded →
        let u := discardAndClear (taken tag (.unthread true) s)
        let t := if writerBusy u then setPhase .waitFlush u else unthreadFromHead .unthread tag true u
        exec (.unthread tag true) s = .next (finish t) ∧ t.dbf.writeRing = [] ∧ t.wch.report = none ∧ t.cpe.intake = []
          ∧ (writeSideEmpty s = false → t.fmc.discarded = s.fmc.discarded + held s)
          ∧ (writerBusy u = false → t.cah.state = .unthreading ∧ t.dlp.run.phase = .unthreading)))
  ∧ (∀ s : State,
    (s.dlp.run.phase ≠ .notBegun ∨ s.dlp.queue = [] → exec .queueHeadBegins s = .next s)
      ∧ (∀ (q : QEntry) (rest : List QEntry), s.dlp.run.phase = .notBegun → s.dlp.queue = q :: rest →
          exec .queueHeadBegins s = .next (finish (beginCommand q.tag q.cmd s))))

/-- CARTRIDGE_INSERTED in EMPTY latches Cartridge Seated, notes the sensed type and the switch, begins the first read of the
Cartridge Memory and takes the policies in force; elsewhere it changes nothing. In SEATED a failed read goes on to the next of
three attempts. A good read of a data cartridge gives READ/WRITE or READ-ONLY by the switch at level 4, READ-ONLY at level 3
with the format cap 4, and INCOMPATIBLE with its event at any other level; with Session Open no the directory is the memory's,
and a blank memory gives the empty values of R13; with Session Open yes it is empty, invalid and latched. A cleaning cartridge
without uses is HELD with Cleaning Expired, and with uses waits for READY or begins its pass. A third failed read gives a data
cartridge READ-ONLY, no directory and a fault of the CM READER that does not freeze the drive, and a cleaning cartridge HELD
with Cleaning Incomplete. In a recovery the read ends HELD, READY and Drive Ready, with the mode of a data cartridge. An
insertion elsewhere and the end of no attempt change nothing (log entry 2); that one with no uses gives Cleaning Expired in a
recovery too is the model's choice (log entry 48). (R13, R14, R131, R133, R134, R151, R159, R184; the model's choices: log 2 and
48.) -/
def Obligations.CartridgeIsSeatedAndNegotiated : Prop :=
  (∀ (c : Cartridge) (s : State),
    (s.cah.state ≠ .empty → exec (.cartridgeInserted c) s = .next s)
      ∧ (s.cah.state = .empty → exec (.cartridgeInserted c) s = .next (finish { s with
          events := s.events.modify 0 EventFlags.latch
          cah.state := .seated
          cah.cartridge := some c
          cah.sensedType := some c.notch
          cah.writeProtected := c.writeProtected
          cah.cmReadable := false
          cah.image := none
          cah.cmReadAttempt := some 1
          cah.libraryPolicy := s.pst.libraryPolicy
          cah.linkPolicy := s.pst.linkPolicy
          cah.autoThread := s.pst.autoThread })))
  ∧ (∀ s : State, s.cah.state = .seated →
    (∀ n : Nat, s.cah.cmReadAttempt = some n → n < 3 →
        exec (.cmReadAttemptDone false) s = .next (finish { s with cah.cmReadAttempt := some (n + 1) }))
      ∧ (∀ ok : Bool, s.cah.cmReadAttempt = none → exec (.cmReadAttemptDone ok) s = .next (finish s))
      ∧ (∀ (n : Nat) (c : Cartridge), s.cah.cmReadAttempt = some n → s.cah.cartridge = some c → s.cah.recovering = false →
          s.lbp.waiting = none → s.cah.autoThread = false →
          let t := cmReadEnds true s
          exec (.cmReadAttemptDone true) s = .next (finish t)
            ∧ t.cah.cmReadable = true ∧ t.cah.cmReadAttempt = none
            ∧ (c.memory.cartType = .data → t.cah.image = some c.memory
                ∧ t.cah.mode = some (negotiatedMode (some c.memory) s.cah.writeProtected) ∧ t.cah.negotiated = t.cah.mode
                ∧ (c.memory.level = 4 → t.cah.mode = some (if s.cah.writeProtected then .readOnly .writeProtected else .readWrite)
                    ∧ t.cah.state = .negotiated ∧ t.moc.formatCap = 6)
                ∧ (c.memory.level = 3 → t.cah.mode = some (.readOnly .level3) ∧ t.cah.state = .negotiated ∧ t.moc.formatCap = 4)
                ∧ (c.memory.level ≠ 3 → c.memory.level ≠ 4 → t.cah.mode = some .incompatible ∧ t.cah.state = .held
                    ∧ (s.events.length = 25 → (flagsOf 2 t.events).latched = true))
                ∧ (c.memory.sessionOpen = false → t.fmc.directoryValid = true
                    ∧ (c.memory.directory = [] ∧ c.memory.eod.lastDsn = none →
                        t.fmc.directory = [] ∧ t.fmc.eod = ⟨0, 1000000, none, 0, false⟩ ∧ t.fmc.filemarks = 0)
                    ∧ (c.memory.directory ≠ [] ∨ c.memory.eod.lastDsn ≠ none →
                        t.fmc.directory = c.memory.directory ∧ t.fmc.eod = c.memory.eod ∧ t.fmc.filemarks = c.memory.filemarks))
                ∧ (c.memory.sessionOpen = true → t.fmc.directory = [] ∧ t.fmc.eod = EodPos.empty ∧ t.fmc.directoryValid = false
                    ∧ (s.events.length = 25 → (flagsOf 13 t.events).latched = true)))
            ∧ (c.memory.cartType = .cleaning → t.cah.mode = none ∧ t.moc.formatCap = 6
                ∧ (c.memory.remainingUses = 0 → t.cah.state = .held ∧ (s.events.length = 25 → (flagsOf 22 t.events).latched = true))
                ∧ (0 < c.memory.remainingUses → s.frg.condition ≠ .ready → t.cah.state = .negotiated ∧ t.cah.image = some c.memory)
                ∧ (0 < c.memory.remainingUses → s.frg.condition = .ready → t.cah.state = .cleaning
                    ∧ t.cah.cleaningStep = some .decrement)))
      ∧ (s.cah.cmReadAttempt = some 3 → s.cah.sensedType = some .data → s.cah.recovering = false →
          s.lbp.waiting = none → s.cah.autoThread = false →
          let t := cmReadEnds false s
          exec (.cmReadAttemptDone false) s = .next (finish t)
            ∧ t.cah.mode = some (.readOnly .cmUnreadable) ∧ t.cah.state = .negotiated ∧ t.cah.cmReadable = false ∧ t.cah.image = none
            ∧ t.fmc.directoryValid = false ∧ t.frg.condition = s.frg.condition
            ∧ (s.frg.current = none → t.frg.current =
                some [⟨.cmReader, .cmRead, s.timeBase, s.frg.condition, s.moc.motion, .seated⟩]))
      ∧ (s.cah.cmReadAttempt = some 3 → s.cah.sensedType = some .cleaning → s.lbp.waiting = none →
          let t := cmReadEnds false s
          exec (.cmReadAttemptDone false) s = .next (finish t) ∧ t.cah.state = .held ∧ t.cah.mode = none ∧ t.cah.image = none
            ∧ t.moc.formatCap = 6 ∧ (s.events.length = 25 → (flagsOf 21 t.events).latched = true)
            ∧ t.frg.condition = if s.cah.recovering then .ready else s.frg.condition)
      ∧ (∀ (n : Nat) (c : Cartridge), s.cah.cmReadAttempt = some n → s.cah.cartridge = some c → s.cah.recovering = true →
          s.lbp.waiting = none →
          let t := cmReadEnds true s
          exec (.cmReadAttemptDone true) s = .next (finish t) ∧ t.cah.state = .held ∧ t.cah.recovering = false
            ∧ t.frg.condition = .ready ∧ t.cah.cleaningStep = s.cah.cleaningStep
            ∧ (c.memory.cartType = .data → t.cah.mode = some (negotiatedMode (some c.memory) s.cah.writeProtected))
            ∧ (s.events.length = 25 → (flagsOf 18 t.events).latched = true)))

/-- In READY a cleaning cartridge with uses begins its pass: one use fewer in the image, the section and the run at their start. A
good decrement writes the memory and begins the SEAT LOCK push, or, after an abort, ends the pass HELD with Cleaning Incomplete
latched; a failed one ends it HELD with a fault of the CM READER and Cleaning Incomplete, the memory as it was (log entry 48).
The end of the run stops the tape and has the rewind wait; the emptied stack then gives HELD, HCI 0, Motion Seconds 0, NORMAL,
no Cleaning Call, cap 6, Cleaning Done and a store write. Outside their steps the two events change nothing (log entry 2).
(R159, R160, R161, R162, R163; the model's choices: log 2 and 48.) -/
def Obligations.CleaningPassRuns : Prop :=
  (∀ (i : CmImage) (s : State), s.cah.state = .negotiated → s.frg.condition = .ready → s.cah.image = some i → i.cartType = .cleaning →
    0 < i.remainingUses → startNegotiated s = { s with
      cah.state := .cleaning
      cah.cleaningStep := some .decrement
      cah.usesBefore := i.remainingUses
      cah.sect := 50 - i.remainingUses
      cah.runLength := 0
      cah.aborted := false
      cah.image := some { i with remainingUses := i.remainingUses - 1 } })
  ∧ (∀ s : State, s.cah.cleaningStep ≠ some .decrement → ∀ ok, exec (.useDecrementDone ok) s = .next (finish s))
  ∧ (∀ (c : Cartridge) (i : CmImage) (s : State), s.cah.cleaningStep = some .decrement → s.cah.cartridge = some c → s.cah.image = some i →
    (s.cah.aborted = false → s.cah.stack = [] → exec (.useDecrementDone true) s = .next (finish { s with
        cah.cartridge := some { c with memory := i }
        cah.cleaningStep := some .thread
        cah.stageWork := some { stage := .seatLock, push := true, attempt := 1, timer := 0 } }))
      ∧ (s.cah.aborted = true → exec (.useDecrementDone true) s = .next (finish { s with
        cah.cartridge := some { c with memory := i }
        cah.state := .held
        cah.cleaningStep := none
        cah.aborted := false
        events := s.events.modify 20 EventFlags.latch }))
      ∧ (s.frg.current = none → exec (.useDecrementDone false) s = .next (finish { s with
        cah.state := .held
        cah.cleaningStep := none
        cah.aborted := false
        frg.current := some [⟨.cmReader, .cmWrite, s.timeBase, s.frg.condition, s.moc.motion, .held⟩]
        pst.writes := s.pst.writes ++ [.faults (some [⟨.cmReader, .cmWrite, s.timeBase, s.frg.condition, s.moc.motion, .held⟩])
          (if s.frg.storeLoaded then some s.pst.history else none)]
        events := (s.events.modify 22 EventFlags.latch).modify 20 EventFlags.latch })))
  ∧ (∀ s : State, s.cah.cleaningStep = some .run → s.moc.motion = .streaming → s.moc.operation = none → s.moc.work = .cleaningRun →
      let t := cleaningRunEnds s
      exec .cleaningRunDone s = .next (finish t)
        ∧ t.cah.cleaningStep = some .unthread ∧ t.cah.runLength = 15000 ∧ t.moc.motion = .ramping
        ∧ t.moc.operation = some ⟨.stopping, none, [.ramp (some 0)], false⟩
        ∧ t.moc.waiting = some ⟨.seek, .cleaningRewind, botPlace, none⟩ ∧ t.cah.state = s.cah.state ∧ t.out = s.out)
  ∧ (∀ s : State, s.cah.cleaningStep ≠ some .run → exec .cleaningRunDone s = .next (finish s))
  ∧ (∀ s : State, s.cah.unwind = some .cleaningDone → s.cah.aborted = false →
      let t := stackEmptied s
      t.cah.state = .held ∧ t.cah.cleaningStep = none ∧ t.hcm.hci = 0 ∧ t.hcm.level = .normal ∧ t.hcm.motionSeconds = 0
        ∧ t.hcm.cleaningCall = false ∧ t.moc.conditionCap = 6 ∧ (s.events.length = 25 → (flagsOf 20 t.events).latched = true)
        ∧ t.pst.writes = s.pst.writes ++ [.retained 0 .normal 0])

/-- A finished push puts its stage on the stack and begins the next in order; TENSION begins ACQUIRE, whose tape ramps up to step 1
for its mark run. ACQUIRE does not end before its marks are read and the tape rests; its timeout brings the tape to rest and
tries again while attempts are left, and at the third latches Thread Failed, stops a tape that moves and pops when it rests. A
push of another stage that times out is tried again while attempts are left, and else latches Thread Failed and begins to pop. A
finished pop takes its stage off and begins the next, and that of TENSION leaves the tape RELAXED. The last pop of an unthread
gives HELD, Unthread Complete and a store write of the retained items, begins the push of an Eject that ordered it, and answers
a Data Link Unthread GOOD, or noted when the write-back failed. A failed pop gives STUCK and FAULTED with the unit THREADER.
With no stage in progress the four events change nothing (log entry 2). That the event is latched at the failure, and that pops
wait for rest, are the model's readings (log entries 40 and 22). (R110, R118, R135, R138, R139, R142, R144, R145, R157, R187;
the model's choices: log 2, 22 and 40.) -/
def Obligations.ThreadStackPushesAndPops : Prop :=
  ∀ (st st' : Stage) (n k : Nat) (below : List Stage) (s : State),
    (s.cah.stageWork = none → exec .stagePushDone s = .next (finish s) ∧ exec .stageAttemptTimeout s = .next (finish s)
        ∧ exec .stagePopDone s = .next (finish s) ∧ exec .stagePopFailed s = .next (finish s))
      ∧ (s.cah.stageWork = some ⟨st, true, n, k⟩ → stageOrder.drop (s.cah.stack.length + 1) = st' :: below → st ≠ .tension → st ≠ .acquire →
          st' ≠ .acquire → exec .stagePushDone s = .next (finish { s with
            cah.stack := s.cah.stack ++ [st]
            cah.stageWork := some { stage := st', push := true, attempt := 1, timer := 0 } }))
      ∧ (s.cah.stageWork = some ⟨.tension, true, n, k⟩ → s.cah.stack = [.seatLock, .grip, .draw, .wrap] →
          exec .stagePushDone s = .next (finish { s with
            cah.stack := [.seatLock, .grip, .draw, .wrap, .tension]
            cah.stageWork := some { stage := .acquire, push := true, attempt := 1, timer := 0 }
            moc.motion := .ramping
            moc.step := 0
            moc.operation := some ⟨.acquiring, none, [.ramp (some 1), .markRun, .ramp (some 0)], false⟩
            moc.phaseTime := 0
            moc.restTimer := 0
            moc.restsFor := none
            moc.marks := 0
            moc.towardHigh := true
            moc.watch := 0 }))
      ∧ (s.cah.stageWork = some ⟨.acquire, true, n, k⟩ → acquired s = false → exec .stagePushDone s = .next (finish s))
      ∧ (s.cah.stageWork = some ⟨.acquire, true, n, k⟩ → s.cah.recovering = false → n < 3 →
          exec .stageAttemptTimeout s = .next (finish { s with
            cah.stageWork := some { stage := .acquire, push := true, attempt := n + 1, timer := 0 }
            moc.motion := .ramping
            moc.operation := some ⟨.acquiring, none,
              (if s.moc.motion.moving then [.ramp (some 0)] else []) ++ [.ramp (some 1), .markRun, .ramp (some 0)], false⟩
            moc.phaseTime := 0
            moc.restsFor := none
            moc.marks := 0
            moc.towardHigh := true
            moc.watch := 0 }))
      ∧ (s.cah.stageWork = some ⟨.acquire, true, n, k⟩ → s.cah.recovering = false → 3 ≤ n → s.cah.cleaningStep = none →
          s.cah.stack = [.seatLock, .grip, .draw, .wrap, .tension] →
          let t := stageTimedOut s
          exec .stageAttemptTimeout s = .next (finish t) ∧ t.cah.unwind = some (.threadFailed .acquire)
            ∧ t.cah.state = s.cah.state ∧ t.cah.stack = s.cah.stack
            ∧ (s.events.length = 25 → (flagsOf 4 t.events).latched = true)
            ∧ (s.moc.motion = .stopped → s.moc.operation = none →
                t.cah.stageWork = some { stage := .tension, push := false, attempt := 1, timer := 0 }
                  ∧ t.moc = { s.moc with waiting := none })
            ∧ (s.moc.motion = .streaming → s.moc.operation = some ⟨.acquiring, none, [.markRun, .ramp (some 0)], false⟩ →
                t.cah.stageWork = none ∧ t.moc.operation = some ⟨.stopping, none, [.ramp (some 0)], false⟩))
      ∧ (∀ l : Nat, s.cah.stageWork = none → s.cah.unwind = some (.threadFailed .acquire) → s.cah.stack = below ++ [st] →
          s.moc.operation = some ⟨.stopping, none, [.ramp (some 0)], false⟩ → s.moc.waiting = none →
          let t := rampEnds l s
          exec (.rampDone l) s = .next (finish t) ∧ t.moc.motion = .stopped ∧ t.moc.step = 0
            ∧ t.cah.stageWork = some { stage := st, push := false, attempt := 1, timer := 0 })
      ∧ (s.cah.stageWork = some ⟨st, true, n, k⟩ → s.cah.recovering = false → n < stageAttempts st → st ≠ .acquire →
          exec .stageAttemptTimeout s = .next (finish { s with
            cah.stageWork := some { stage := st, push := true, attempt := n + 1, timer := 0 } }))
      ∧ (s.cah.stageWork = some ⟨st, true, n, k⟩ → s.cah.recovering = false → stageAttempts st ≤ n → st ≠ .acquire →
          s.cah.cleaningStep = none → s.cah.stack = below ++ [st'] → s.moc.operation = none →
          exec .stageAttemptTimeout s = .next (finish { s with
            events := s.events.modify 3 EventFlags.latch
            cah.unwind := some (.threadFailed st)
            cah.stageWork := some { stage := st', push := false, attempt := 1, timer := 0 } }))
      ∧ (s.cah.stageWork = some ⟨st, false, n, k⟩ → st ≠ .tension → s.cah.stack = below ++ [st', st] →
          exec .stagePopDone s = .next (finish { s with
            cah.stack := below ++ [st']
            cah.stageWork := some { stage := st', push := false, attempt := 1, timer := 0 } }))
      ∧ (s.cah.stageWork = some ⟨.tension, false, n, k⟩ → s.cah.stack = [.seatLock, .grip, .draw, .wrap, .tension] →
          exec .stagePopDone s = .next (finish { s with
            cah.stack := [.seatLock, .grip, .draw, .wrap]
            cah.stageWork := some { stage := .wrap, push := false, attempt := 1, timer := 0 }
            moc.motion := .relaxed
            moc.step := 0
            moc.operation := none
            moc.waiting := none
            moc.restsFor := none }))
      ∧ (∀ (q : QEntry) (force : Bool) (op : MediaOp), s.cah.stageWork = some ⟨st, false, n, k⟩ → s.cah.stack = [st] → st ≠ .tension →
          s.cah.unwind = some .unthread → s.cah.mediaOp = some op →
          let t := stagePopped s
          exec .stagePopDone s = .next (finish t) ∧ t.cah.stack = [] ∧ t.cah.stageWork = none ∧ t.cah.unwind = none
            ∧ (s.events.length = 25 → (flagsOf 5 t.events).latched = true)
            ∧ t.pst.writes = s.pst.writes ++ [.retained s.hcm.hci s.hcm.level s.hcm.motionSeconds]
            ∧ (op.kind = .eject → t.cah.state = .ejecting ∧ t.cah.pushing = true ∧ t.cah.mediaOp = some op)
            ∧ (op.kind ≠ .eject → t.cah.state = .held ∧ t.cah.mediaOp = none)
            ∧ (op.kind = .unthread → s.dlp.queue = [q] → q.cmd = .unthread force → s.dlp.run = { phase := .unthreading } →
                s.dlp.link = .up →
                t.dlp.queue = [] ∧ t.out = s.out ++ [.reply q.tag
                  ⟨if s.cah.writeBackFailed then .sense (sense .notedCmWriteFailed) else .good, .none⟩]))
      ∧ (s.cah.stageWork = some ⟨st, false, n, k⟩ → st ≠ .tension → s.cah.stack = [st] → s.cah.unwind = some .unthread → s.cah.mediaOp = none →
          s.dlp.queue = [] → exec .stagePopDone s = .next (finish { s with
            cah.stack := []
            cah.stageWork := none
            cah.unwind := none
            cah.state := .held
            events := s.events.modify 4 EventFlags.latch
            pst.writes := s.pst.writes ++ [.retained s.hcm.hci s.hcm.level s.hcm.motionSeconds] }))
      ∧ (s.cah.stageWork = some ⟨st, false, n, k⟩ →
          let t := becomeStuck .popFailed s
          exec .stagePopFailed s = .next (finish t)
            ∧ t.cah.state = .stuck ∧ t.cah.stack = s.cah.stack ∧ t.cah.stageWork = none ∧ t.cah.mediaOp = none
            ∧ t.frg.condition = .faulted ∧ (s.events.length = 25 → (flagsOf 24 t.events).latched = true)
            ∧ (s.frg.current = none → t.frg.current =
                some [⟨.threader, .popFailed, s.timeBase, s.frg.condition, s.moc.motion, .stuck⟩]))

/-- When the ACQUIRE push ends a thread with the tape at rest and four marks read: THREADED with the whole stack, the negotiated
mode, the load count up by one (at most 2^24 - 1) and the Session Open mark no; the policies in force from the working settings;
the session's counters, Position and Held, Link and Starved figures at 0; the next DSN and object from the EOD position; empty
rings, NEUTRAL, read-ahead off; EOD Current set with the next place at the EOD position; reading from object 0 at BOT; the tape
stopped on wrap 0; Hs Unknown, no Pending Target, the target the lesser of 3 and the cap, and CRs the cartridge's last ratio
when in range and else 512; Thread Complete latched. (R10, R22, R61, R85, R107, R118, R123, R129, R135, R137, R140, R150.) -/
def Obligations.ThreadCompletionSetsEveryBlock : Prop :=
  ∀ (n k : Nat) (i : CmImage) (s : State), s.cah.stageWork = some ⟨.acquire, true, n, k⟩ →
    s.moc.motion = .stopped → s.moc.operation = none → 4 ≤ s.moc.marks → s.cah.stack = [.seatLock, .grip, .draw, .wrap, .tension] → s.cah.recovering = false → s.cah.cleaningStep = none →
    s.cah.image = some i → s.dlp.run.answered = false →
    let t := stagePushed s
    exec .stagePushDone s = .next (finish t)
      ∧ t.cah.state = .threaded ∧ t.cah.stack = stageOrder ∧ t.cah.mode = s.cah.negotiated ∧ t.cah.mediaOp = none
      ∧ t.cah.image = some { i with loadCount := min 16777215 (i.loadCount + 1) } ∧ t.cah.sessionOpenMarked = false
      ∧ t.cah.libraryPolicy = s.pst.libraryPolicy ∧ t.cah.linkPolicy = s.pst.linkPolicy ∧ t.cah.autoThread = s.pst.autoThread
      ∧ t.fmc.accepted = 0 ∧ t.fmc.committed = 0 ∧ t.fmc.discarded = 0 ∧ t.fmc.position = 0
      ∧ (t.fmc.nextDsn = match s.fmc.eod.lastDsn with | some d => d + 1 | none => 0)
      ∧ t.fmc.nextObject = s.fmc.eod.nextObject ∧ t.fmc.directory = s.fmc.directory ∧ t.fmc.eod = s.fmc.eod
      ∧ t.fmc.earlyWarning = earlyWarningAt s.fmc.eod
      ∧ t.cpe.faults = 0 ∧ t.cpe.sessionDisable = false
      ∧ t.dbf.writeRing = [] ∧ t.dbf.readRing = [] ∧ t.dbf.direction = .neutral ∧ t.dbf.readAheadActive = false ∧ t.dbf.readSideDrops = 0
      ∧ t.dbf.starvedTime = 0 ∧ t.dlp.heldTime = 0 ∧ t.dlp.linkBytes = 0
      ∧ t.wch = { eodCurrent := true, nextPlace := ⟨s.fmc.eod.wrap, s.fmc.eod.lpos⟩ }
      ∧ t.rch = { expected := some 0, nextDsn := some 0, resume := some ⟨0, 1000000⟩ }
      ∧ t.moc.motion = .stopped ∧ t.moc.step = 0 ∧ t.moc.wrap = some 0 ∧ t.moc.operation = none ∧ t.moc.servoLost = 0
      ∧ t.moc.backhitches = 0 ∧ t.moc.turnarounds = 0 ∧ t.moc.speedChanges = 0 ∧ t.moc.servoLosts = 0
      ∧ t.sgv.hs = none ∧ t.sgv.pendingTarget = none ∧ t.sgv.pendingCount = 0 ∧ t.sgv.target = min (capOf s) 3
      ∧ (t.sgv.crs = match i.lastRatio with
          | some r => if 256 ≤ r ∧ r ≤ 8192 then r else 512
          | none => 512)
      ∧ (s.events.length = 25 → (flagsOf 3 t.events).latched = true)

/-- SESSION_OPEN_WRITE_DONE: good marks the memory; failed goes on to the next of three attempts, and the third failure in THREADED
gives WRITE SUSPENDED, no rewrite queue, no Abandon frame pending, no flush, and CM Write Failed, Write Failure and Equipment
Warning. CM_WRITE_BACK_DONE: good writes the image and begins to pop; failed keeps the memory, notes the failure, latches CM
Write Failed, reports the CM READER and pops. The gathered image carries CRs, a history of at most four sessions ending with
this one, and, only with Directory Valid set, the directory, the EOD position and Session Open no. Outside their attempts both
events change nothing (log entry 2). That a failed Session Open write takes every step of R74, Write Failure among them, is the
model's reading (log entry 17). (R22, R74, R139, R140, R143, R144, R187; the model's choices: log 2 and 17.) -/
def Obligations.CartridgeMemoryIsWritten : Prop :=
  ∀ (n : Nat) (top : Stage) (below : List Stage) (c : Cartridge) (i : CmImage) (s : State),
    (s.cah.sessionOpenWrite = none → s.cah.writeBackWaits = false → ∀ ok, exec (.sessionOpenWriteDone ok) s = .next (finish s))
      ∧ (s.cah.sessionOpenWrite = some n → s.cah.writeBackWaits = false → s.cah.cartridge = some c →
          exec (.sessionOpenWriteDone true) s = .next (finish { s with
            cah.sessionOpenWrite := none
            cah.sessionOpenMarked := true
            cah.cartridge := some { c with memory := { c.memory with sessionOpen := true } } }))
      ∧ (s.cah.sessionOpenWrite = some n → s.cah.writeBackWaits = false → n < 3 →
          exec (.sessionOpenWriteDone false) s = .next (finish { s with cah.sessionOpenWrite := some (n + 1) }))
      ∧ (s.cah.sessionOpenWrite = some 3 → s.cah.writeBackWaits = false → s.cah.state = .threaded →
          let t := sessionOpenEnds false s
          exec (.sessionOpenWriteDone false) s = .next (finish t)
            ∧ t.cah.mode = some .writeSuspended ∧ t.cah.sessionOpenWrite = none ∧ t.wch.rewriteQueue = []
            ∧ t.wch.abandon = none ∧ t.dbf.flush = false
            ∧ (s.events.length = 25 → (flagsOf 15 t.events).latched = true ∧ (flagsOf 11 t.events).latched = true
                ∧ (flagsOf 23 t.events).latched = true))
      ∧ (s.cah.writeBack = false → ∀ ok, exec (.cmWriteBackDone ok) s = .next (finish s))
      ∧ (s.cah.writeBack = true → s.cah.cartridge = some c → s.cah.image = some i → s.cah.stack = below ++ [top] → s.moc.operation = none →
          exec (.cmWriteBackDone true) s = .next (finish { s with
            cah.writeBack := false
            cah.cartridge := some { c with memory := i }
            cah.unwind := some .unthread
            cah.stageWork := some { stage := top, push := false, attempt := 1, timer := 0 } })
          ∧ (let t := writeBackEnds false s
             exec (.cmWriteBackDone false) s = .next (finish t)
              ∧ t.cah.writeBackFailed = true ∧ t.cah.cartridge = some c ∧ t.cah.unwind = some .unthread
              ∧ t.cah.stageWork = some { stage := top, push := false, attempt := 1, timer := 0 }
              ∧ (s.events.length = 25 → (flagsOf 15 t.events).latched = true)
              ∧ (s.frg.current = none → t.frg.current =
                  some [⟨.cmReader, .cmWrite, s.timeBase, s.frg.condition, s.moc.motion, s.cah.state⟩])))
      ∧ (gatherImage s i).lastRatio = some s.sgv.crs ∧ (gatherImage s i).history.length ≤ 4
      ∧ (gatherImage s i).history.getLast? =
          some ⟨Config.driveSerial, s.wch.dataSetsCommitted, s.wch.rewriteFrames, s.rch.recovered, s.rch.unrecovered⟩
      ∧ (s.fmc.directoryValid = true → (gatherImage s i).directory = s.fmc.directory ∧ (gatherImage s i).eod = s.fmc.eod
          ∧ (gatherImage s i).sessionOpen = false)
      ∧ (s.fmc.directoryValid = false → (gatherImage s i).directory = i.directory ∧ (gatherImage s i).eod = i.eod
          ∧ (gatherImage s i).sessionOpen = i.sessionOpen)

/-- EJECT_PUSH_DONE while a push is in progress gives EMPTY with no cartridge, image, mode, question or grace timer, custody with
the Library Port, an empty invalid directory, format cap 6 and Cartridge Ejected latched, and an Eject at the head of the queue
is answered GOOD. EJECT_PUSH_TIMEOUT gives STUCK and FAULTED with Drive Faulted latched. With no push in progress both change
nothing (log entry 2). (R145, R139, R187; the model's choices: log 2.) -/
def Obligations.EjectEmptiesTheDrive : Prop :=
  ∀ s : State,
    (s.cah.pushing = false → exec .ejectPushDone s = .next s ∧ exec .ejectPushTimeout s = .next s)
      ∧ (s.cah.pushing = true →
        (let t := ejectDone s
         exec .ejectPushDone s = .next (finish t)
          ∧ t.cah.state = .empty ∧ t.cah.pushing = false ∧ t.cah.cartridge = none ∧ t.cah.image = none ∧ t.cah.mode = none
          ∧ t.cah.cmReadable = false ∧ t.cah.mediaOp = none ∧ t.cah.holder = .library ∧ t.cah.question = none ∧ t.cah.grace = none
          ∧ t.fmc.directory = [] ∧ t.fmc.eod = EodPos.empty ∧ t.fmc.directoryValid = false ∧ t.moc.formatCap = 6
          ∧ (s.events.length = 25 → (flagsOf 6 t.events).latched = true)
          ∧ (∀ (q : QEntry), s.dlp.queue = [q] → q.cmd = .eject → s.dlp.run = { phase := .ejecting } → s.dlp.link = .up →
              t.dlp.queue = [] ∧ t.out.getLast? = some (.reply q.tag goodReply)))
        ∧ (let t := becomeStuck .ejectFailed s
           exec .ejectPushTimeout s = .next (finish t)
            ∧ t.cah.state = .stuck ∧ t.cah.pushing = false ∧ t.frg.condition = .faulted
            ∧ (s.events.length = 25 → (flagsOf 24 t.events).latched = true)))

/-- REST_TIMER_EXPIRY takes STOPPED with no operation to RESTING and changes nothing elsewhere. MOTION_SECOND, while the tape moves
or a second of motion has come together, takes the second, raises Motion Seconds and tests the Condition Level. RETENSION_DONE
goes on to the backhitch of its plan. TENSION_TIMEOUT in a re-tension and OPERATION_OVERRUN in a timed operation are motion
faults, and a motion fault of the REEL DRIVE, for either cause, gives HALTED at step 0, no LPOS, no operation or waiting
request, FAULTED with Drive Faulted and the fault entered, no scan and no Rebuild pass, the duty IDLE with no collector, the
writer IDLE, an empty read ring, window, trail, Void Tags and rewrite queue, a cleaning pass aborted, and the write ring kept.
With no such work in hand these events change nothing (log entry 2), and an ACQUIRE attempt has no overrun of its own (log entry
48). (R62, R108, R109, R121, R154, R163, R187; the model's choices: log 1, 2 and 48.) -/
def Obligations.RestTensionAndOverrun : Prop :=
  ∀ s : State,
    (s.moc.motion = .stopped → s.moc.operation = none → exec .restTimerExpiry s = .next { s with moc.motion := .resting })
      ∧ (s.moc.motion ≠ .stopped → exec .restTimerExpiry s = .next s)
      ∧ (s.moc.motion.moving = true ∨ 1000000 ≤ s.moc.motionTime → exec .motionSecond s = .next (sendNotices (testLevel { s with
          moc.motionTime := s.moc.motionTime - 1000000
          hcm.motionSeconds := min 4294967295 (s.hcm.motionSeconds + 1) })))
      ∧ (s.moc.motion.moving = false → s.moc.motionTime < 1000000 → exec .motionSecond s = .next (sendNotices s))
      ∧ (∀ (w : Work) (aim : Option Place) (p : List Phase) (r : Bool), s.moc.operation = some ⟨w, aim, .retension :: .backhitch :: p, r⟩ →
          s.rch.trail = [] → s.wch.voidTags = [] →
          exec .retensionDone s = .next (finish { s with
            moc.motion := .backhitch
            moc.step := 0
            moc.phaseTime := 0
            moc.operation := some ⟨w, aim, .backhitch :: p, r⟩
            moc.backhitches := s.moc.backhitches + 1 }))
      ∧ (s.moc.operation = none → exec .retensionDone s = .next (finish s) ∧ exec .operationOverrun s = .next (finish s)
          ∧ (s.cah.recovering = false → exec .tensionTimeout s = .next (finish s)))
      ∧ (timedOperation s = false → exec .operationOverrun s = .next (finish s))
      ∧ (threadAcquires s = true → timedOperation s = false)
      ∧ (runningPhase s = some .retension → exec .tensionTimeout s = .next (finish (motionFault .reelDrive .noTension s)))
      ∧ (timedOperation s = true → exec .operationOverrun s = .next (finish (motionFault .reelDrive .overrun s)))
      ∧ (∀ c : FaultCause, let t := motionFault .reelDrive c s
         (s.frg.current = none → t.frg.current = some [⟨.reelDrive, c, s.timeBase, s.frg.condition, .halted, s.cah.state⟩])
          ∧ t.moc.motion = .halted ∧ t.moc.step = 0 ∧ t.moc.lpos = none ∧ t.moc.operation = none ∧ t.moc.waiting = none
          ∧ t.frg.condition = .faulted ∧ (s.events.length = 25 → (flagsOf 24 t.events).latched = true)
          ∧ t.rch.scan = none ∧ t.rch.rebuild = none ∧ t.dbf.readRing = [] ∧ t.wch.window = [] ∧ t.wch.rewriteQueue = []
          ∧ t.wch.writer = .idle ∧ t.wch.voidTags = [] ∧ t.rch.trail = [] ∧ t.rch.duty = .idle ∧ t.rch.current = none
          ∧ (s.cah.cleaningStep ≠ none → t.cah.aborted = true)
          ∧ t.dbf.writeRing = s.dbf.writeRing)

/-- With no tag on its way to the read head. RAMP_DONE at the end of a stop gives STOPPED with the LPOS carried; at the end of the
ramp of a write at the next place it gives STREAMING at the step and WRITING; in a seek it gives step 7, SEEKING, or RAMPING
down at once where the place is near. BACKHITCH_DONE, SEEK_DONE (at step 7) and TURNAROUND_DONE followed by a ramp begin that
ramp from rest, on the aim's wrap and in the direction of that wrap, at the named step or the Target Step. SEEK_DONE of a Rewind
at the head gives Position 0 at BOT and answers it GOOD. A known LPOS takes what the event reports; an unknown one stays
unknown. With no operation, and for SEEK_DONE out of a seek at step 7, the four events change nothing (log entry 2). From how
near a seek ramps down is a free figure of Config (log entry 22). (R104, R108, R110, R113, R115, R116, R117, R118, R128; the
model's choices: log 2 and 22.) -/
def Obligations.MotionPhasesEndAndFollow : Prop :=
  ∀ (l : Nat) (w : Work) (aim : Option Place) (k : Option Nat) (p : List Phase) (r : Bool) (s : State), s.rch.trail = [] →
    s.wch.voidTags = [] →
    (s.moc.operation = some ⟨.stopping, aim, [.ramp (some 0)], r⟩ → s.moc.waiting = none → s.cah.unwind = none →
        exec (.rampDone l) s = .next (finish { s with
          moc.motion := .stopped
          moc.step := 0
          moc.restTimer := 0
          moc.lpos := s.moc.lpos.map (fun _ => l)
          moc.operation := none
          moc.work := .stopping }))
      ∧ (∀ n : Nat, s.moc.operation = some ⟨.writing, some s.wch.nextPlace, [.ramp (some (n + 1))], r⟩ → s.wch.writer = .starting →
          s.moc.waiting = none → s.rch.scan = none →
          exec (.rampDone l) s = .next (finish { s with
            moc.motion := .streaming
            moc.step := n + 1
            moc.lpos := s.moc.lpos.map (fun _ => l)
            moc.operation := none
            moc.work := .writing
            moc.restsFor := none
            moc.towardHigh := decide (s.moc.wrap.getD 0 % 2 = 0)
            moc.watch := 0
            wch.writer := .writing }))
      ∧ (s.moc.operation = some ⟨w, aim, .backhitch :: .ramp k :: p, r⟩ → w ≠ .scanning → Phase.markRun ∉ p →
          exec (.backhitchDone l) s = .next (finish { s with
            moc.motion := .ramping
            moc.step := 0
            moc.phaseTime := 0
            moc.lpos := s.moc.lpos.map (fun _ => l)
            moc.restsFor := none
            moc.towardHigh := decide (s.moc.wrap.getD 0 % 2 = 0)
            moc.operation := some ⟨w, aim, .ramp (some (k.getD s.sgv.target)) :: p, r⟩
            moc.watch := 0 }))
      ∧ (∀ a : Place, s.moc.operation = some ⟨w, some a, .seek :: p, r⟩ → s.moc.motion = .ramping → s.moc.step ≠ 7 →
          let t := rampEnds l s
          exec (.rampDone l) s = .next (finish t) ∧ t.moc.step = 7 ∧ t.moc.operation = s.moc.operation
            ∧ t.moc.lpos = s.moc.lpos.map (fun _ => l) ∧ t.moc.drift = 0
            ∧ (t.moc.motion = .seeking ∨ t.moc.motion = .ramping ∧ ∃ x, s.moc.lpos = some x ∧ l ≤ a.lpos + Config.seekReach
                ∧ a.lpos ≤ l + Config.seekReach))
      ∧ (∀ a : Place, s.moc.operation = some ⟨w, some a, .seek :: .ramp k :: p, r⟩ → s.moc.step = 7 →
          s.moc.motion = .seeking ∨ s.moc.motion = .ramping → w ≠ .scanning →
          exec (.seekDone l) s = .next (finish { s with
            moc.motion := .ramping
            moc.step := 0
            moc.phaseTime := 0
            moc.lpos := s.moc.lpos.map (fun _ => l)
            moc.wrap := some a.wrap
            moc.restsFor := none
            moc.towardHigh := decide (a.wrap % 2 = 0)
            moc.operation := some ⟨w, some a, .ramp (some (k.getD s.sgv.target)) :: p, r⟩
            moc.watch := 0 }))
      ∧ (seekAtSpeed s = false → runningPhase s ≠ some .slowRun → exec (.seekDone l) s = .next (finish s))
      ∧ (∀ a : Place, s.moc.operation = some ⟨w, some a, .turnaround :: .ramp k :: p, r⟩ → w ≠ .scanning →
          exec (.turnaroundDone l) s = .next (finish { s with
            moc.motion := .ramping
            moc.step := 0
            moc.phaseTime := 0
            moc.lpos := s.moc.lpos.map (fun _ => l)
            moc.wrap := some a.wrap
            moc.restsFor := none
            moc.towardHigh := decide (a.wrap % 2 = 0)
            moc.operation := some ⟨w, some a, .ramp (some (k.getD s.sgv.target)) :: p, r⟩
            moc.watch := 0 }))
      ∧ (∀ q : QEntry, s.moc.operation = some ⟨.rewinding, some botPlace, [.seek], false⟩ → s.moc.step = 7 → s.moc.motion = .ramping →
          s.moc.waiting = none → s.dlp.queue = [q] → s.cah.unwind = none →
          q.cmd = .rewind false → s.dlp.run = { phase := .moving } → s.dlp.link = .up →
          exec (.seekDone l) s = .next (finish { s with
            moc.motion := .stopped
            moc.step := 0
            moc.restTimer := 0
            moc.lpos := s.moc.lpos.map (fun _ => l)
            moc.wrap := some 0
            moc.restsFor := some botPlace
            moc.towardHigh := true
            moc.operation := none
            moc.work := .rewinding
            fmc.position := 0
            rch.expected := some 0
            rch.nextDsn := some 0
            rch.resume := some botPlace
            dlp.queue := []
            dlp.run := {}
            dlp.tags := s.dlp.tags.filter (· ≠ q.tag)
            out := s.out ++ [.reply q.tag ⟨.good, .position 0⟩] }))
      ∧ (s.moc.operation = none → exec (.rampDone l) s = .next (finish s) ∧ exec (.backhitchDone l) s = .next (finish s)
          ∧ exec (.seekDone l) s = .next (finish s) ∧ exec (.turnaroundDone l) s = .next (finish s))

/-- While marks pass, outside a mark run, SERVO_MARK sets the wrap and a known LPOS and restarts the watch. In a mark run it counts
the mark, an unknown LPOS staying unknown until the fourth, which makes the LPOS known, ends the run and begins the ramp that
follows. In the ACQUIRE stage of a thread a loss ends the attempt as its timeout does. Elsewhere the first SERVO_LOST with the
watch armed counts and begins the stop; with no frame awaiting its verdict the plan is a stop, a backhitch, a ramp to step 1 and
a mark run, to the place where its work resumes (for a scan with no header read, and for the direction of a seek, the model's
choice, log entry 60), a WRITING writer back to STARTING, with no fault; the next before a success is a motion fault of the
SERVO. A mark changes nothing where no marks pass, and a loss nothing where the watch is not armed (log entry 2). The two
windows in which the watch is not armed are timed by the model's clock (log entry 1). (R118, R119, R120, R121, R138, R187; the
model's choices: log 1, 2, 22 and 60.) -/
def Obligations.ServoMarksAndTheirLoss : Prop :=
  ∀ (w l : Nat) (s : State),
    (marksPass s = false → exec (.servoMark w l) s = .next (finish s))
      ∧ (servoArmed s = false → exec .servoLost s = .next (finish s))
      ∧ (marksPass s = true → runningPhase s ≠ some .markRun → runningPhase s ≠ some .seek → s.cah.cleaningStep = none →
          exec (.servoMark w l) s = .next (finish { s with
            moc.wrap := some w
            moc.lpos := s.moc.lpos.map (fun _ => l)
            moc.drift := 0
            moc.watch := 0 }))
      ∧ (marksPass s = true → runningPhase s = some .markRun → s.moc.marks < 3 → s.cah.cleaningStep = none →
          exec (.servoMark w l) s = .next (finish { s with
            moc.wrap := some w
            moc.lpos := s.moc.lpos.map (fun _ => l)
            moc.drift := 0
            moc.watch := 0
            moc.marks := s.moc.marks + 1 }))
      ∧ (∀ (work : Work) (aim : Option Place) (k : Nat) (rest : List Phase) (re : Bool), marksPass s = true →
          s.moc.operation = some ⟨work, aim, .markRun :: .ramp (some k) :: rest, re⟩ → 3 ≤ s.moc.marks → s.moc.step ≠ 0 →
          let t := markRead w l s
          exec (.servoMark w l) s = .next (finish t) ∧ t.moc.lpos = some l ∧ t.moc.wrap = some w ∧ t.moc.marks = s.moc.marks + 1
            ∧ t.moc.motion = .ramping ∧ t.moc.operation = some ⟨work, aim, .ramp (some k) :: rest, re⟩)
      ∧ (threadAcquires s = true → servoArmed s = true → exec .servoLost s = exec .stageAttemptTimeout s)
      ∧ (threadAcquires s = false → servoArmed s = true → s.moc.servoLost = 0 →
          let t := servoLostOnce s
          exec .servoLost s = .next (finish t) ∧ t.moc.servoLost = 1 ∧ t.moc.servoLosts = s.moc.servoLosts + 1
            ∧ (s.wch.window = [] → s.wch.voidTags = [] → s.rch.trail = [] →
                t.moc.motion = .ramping ∧ t.moc.operation.map (fun op => (op.plan.take 4, op.reacquiring))
                    = some ([.ramp (some 0), .backhitch, .ramp (some 1), .markRun], true)
                ∧ (s.moc.operation = none → t.moc.operation.bind (fun op => op.aim) = some (resumePlace s.moc.work s))
                ∧ (t.wch.writer = if s.wch.writer = .writing then .starting else s.wch.writer) ∧ t.frg = s.frg ∧ t.out = s.out))
      ∧ (threadAcquires s = false → servoArmed s = true → s.moc.servoLost ≠ 0 →
          let t := motionFault .servo .servoLost s
          exec .servoLost s = .next (finish t) ∧ t.moc.motion = .halted ∧ t.moc.lpos = none ∧ t.frg.condition = .faulted
            ∧ (s.frg.current = none → t.frg.current =
                some [⟨.servo, .servoLost, s.timeBase, s.frg.condition, .halted, s.cah.state⟩])
            ∧ (s.events.length = 25 → (flagsOf 24 t.events).latched = true))

/-- When the level that HCI and Motion Seconds give is not above the Condition Level, a test changes nothing. When it is above, the
level rises to it, the Cleaning Call is set, the condition cap is that level's with the target limited to the new cap, and the
event of each level entered or passed over is latched; below CRITICAL the Fault Register is as before, and the ports, the buffer
and the writer are as before. (R155, R156.) -/
def Obligations.LevelOnlyRises : Prop :=
  ∀ s : State,
    let l := levelOf s.hcm.hci s.hcm.motionSeconds
    (l.rank ≤ s.hcm.level.rank → testLevel s = s)
      ∧ (s.hcm.level.rank < l.rank →
          (testLevel s).hcm = { s.hcm with level := l, cleaningCall := true }
          ∧ (testLevel s).moc.conditionCap = levelCap l ∧ (testLevel s).sgv.target = min s.sgv.target (min 6 (min s.moc.formatCap (levelCap l)))
          ∧ (s.events.length = 25 → ∀ e ∈ riseEvents s.hcm.level l, (flagsOf e.number (testLevel s).events).latched = true)
          ∧ (l ≠ .critical → (testLevel s).frg = s.frg)
          ∧ (testLevel s).dlp = s.dlp ∧ (testLevel s).dbf = s.dbf ∧ (testLevel s).wch = s.wch ∧ (testLevel s).out = s.out)

/-- A sample n makes the HCI floor((15 x HCI + n) / 16), raises Samples Taken and then tests the Condition Level; with both in
0..1000 the new value is too; a clean sample never raises it and gives 0 only from 15 or less. Status reports the HCI, the
level, Motion Seconds and the Cleaning Call, and Read Counters the same with Samples Taken. (R153.) -/
def Obligations.SampleMovesTheIndex : Prop :=
  ∀ (n : Nat) (s : State),
    headSample n s = testLevel { s with hcm.hci := (15 * s.hcm.hci + n) / 16, hcm.samples := s.hcm.samples + 1 }
      ∧ (headSample n s).hcm.hci = (15 * s.hcm.hci + n) / 16
      ∧ (s.hcm.hci ≤ 1000 → n ≤ 1000 → (headSample n s).hcm.hci ≤ 1000)
      ∧ (n = 0 → (headSample n s).hcm.hci ≤ s.hcm.hci ∧ ((headSample n s).hcm.hci = 0 → s.hcm.hci ≤ 15))
      ∧ (statusReport s).hci = s.hcm.hci ∧ (statusReport s).level = s.hcm.level
      ∧ (statusReport s).motionSeconds = s.hcm.motionSeconds ∧ (statusReport s).cleaningCall = s.hcm.cleaningCall
      ∧ (counterReport s).hci = s.hcm.hci ∧ (counterReport s).level = s.hcm.level
      ∧ (counterReport s).motionSeconds = s.hcm.motionSeconds ∧ (counterReport s).cleaningCall = s.hcm.cleaningCall
      ∧ (counterReport s).samples = s.hcm.samples

/-- With U and C above 0, CRs becomes floor((3 x CRs + q) / 4) for q = floor(256 x U / C) clamped to 256..8192, and is held
otherwise. With t of 1,000 microseconds or more, Hs becomes H = floor(B x 1000 / t) clamped to 320,000 when Unknown and
floor((Hs + H) / 2) otherwise; below, it is held. Both stay in their ranges. (R125.) -/
def Obligations.SmoothedFiguresFollowRatioAndRate : Prop :=
  ∀ (u c bytes t cap now : Nat) (g : Sgv),
    let g' := evaluateWith u c bytes t cap now g
    (g'.crs = if 0 < u ∧ 0 < c then (3 * g.crs + max 256 (min 8192 (256 * u / c))) / 4 else g.crs)
      ∧ (1000 ≤ t → g'.hs = some (match g.hs with
          | none => min 320000 (bytes * 1000 / t)
          | some h => (h + min 320000 (bytes * 1000 / t)) / 2))
      ∧ (t < 1000 → g'.hs = g.hs)
      ∧ (256 ≤ g.crs → g.crs ≤ 8192 → 256 ≤ g'.crs ∧ g'.crs ≤ 8192)
      ∧ ((∀ h, g.hs = some h → h ≤ 320000) → ∀ h, g'.hs = some h → h ≤ 320000)

/-- The demand is the least D with Hs x 256 at most D x CRs, and the required rate is D + floor(D / 16). The lowest step is the
least of 1..6 whose native rate is at least the requirement, or 6. With Hs Unknown after the rate stage the evaluation ends with
target, Pending Target and count as before; otherwise it compares the lowest step limited to the cap. An Hs of 0 gives demand 0
and the candidate 1. (R126.) -/
def Obligations.CandidateIsTheLowestStepWithinTheCap : Prop :=
  (∀ hs crs : Nat, 0 < crs →
      (hs * 256 ≤ demandOf hs crs * crs ∧ ∀ d, hs * 256 ≤ d * crs → demandOf hs crs ≤ d)
        ∧ requiredRate hs crs = demandOf hs crs + demandOf hs crs / 16)
    ∧ (∀ req : Nat, 1 ≤ lowestStep req ∧ lowestStep req ≤ 6 ∧ (∀ k, 1 ≤ k → k < lowestStep req → nativeRate k < req)
        ∧ (req ≤ nativeRate (lowestStep req) ∨ lowestStep req = 6))
    ∧ (∀ (u c bytes t cap now : Nat) (g : Sgv), ∃ g1 : Sgv, g1.target = g.target ∧ g1.pendingTarget = g.pendingTarget
        ∧ g1.pendingCount = g.pendingCount ∧ g1.crs = ratioStage g.crs u c ∧ g1.hs = rateStage g.hs bytes t
        ∧ (g1.hs = none → evaluateWith u c bytes t cap now g = g1)
        ∧ (∀ hs, g1.hs = some hs →
            evaluateWith u c bytes t cap now g = choose (min (lowestStep (requiredRate hs g1.crs)) cap) g1))
    ∧ (∀ crs, demandOf 0 crs = 0 ∧ lowestStep (requiredRate 0 crs) = 1)

/-- A candidate equal to the target clears the Pending Target and its count; one equal to the Pending Target with count 1 becomes
the target and clears both; any other becomes the Pending Target with count 1, the target unchanged. Two evaluations with one
new candidate make it the target, and a candidate within a cap keeps the target within it. (R127.) -/
def Obligations.TargetChangesAfterTwoEvaluations : Prop :=
  ∀ (k : Nat) (g : Sgv),
    (k = g.target → choose k g = { g with pendingTarget := none, pendingCount := 0 })
      ∧ (k ≠ g.target → g.pendingTarget = some k → g.pendingCount = 1 →
          choose k g = { g with target := k, pendingTarget := none, pendingCount := 0 })
      ∧ (k ≠ g.target → ¬(g.pendingTarget = some k ∧ g.pendingCount = 1) →
          choose k g = { g with pendingTarget := some k, pendingCount := 1 })
      ∧ (k ≠ g.target → g.pendingTarget ≠ some k → (choose k (choose k g)).target = k)
      ∧ (∀ cap, k ≤ cap → g.target ≤ cap → (choose k g).target ≤ cap)

/-- For every room, history window and input: decoding the bytes of the tokens that the token fill chooses, with the same window,
gives the window followed by the input it covered, so no byte is lost or changed; it covers no more than the input; the bytes of
the tokens are as many as their cost, which is within the room; and unless the room ran out the whole input is covered. (R24,
R25, R29, R38; the model's choices: log 5 and 10.) -/
def Obligations.TokenFillDecodes : Prop :=
  ∀ (room : Nat) (window input : List Byte),
    let f := tokenFill room window input
    decodeSyms (tokenSyms f.tokens) window f.covered 0 none = some (window ++ input.take f.covered)
      ∧ f.covered ≤ input.length ∧ (tokenSyms f.tokens).length = f.cost ∧ f.cost ≤ room
      ∧ (f.overflow = false → f.covered = input.length)

/-- Whatever the switch, the shadow decompressor's verdict, the room, the window and the bytes at hand: a part that is formed
decodes, by its kind and lengths, to its bytes after the same window; the bytes are the first of those at hand; its stored form
fits the room; with compression off it is STORED with no fault; and a compression fault makes it STORED. That payload bytes are
named by their token is the model's choice (log entry 5). (R29, R30, R31, R36, R38; the model's choices: log 5.) -/
def Obligations.FormedPartDecodes : Prop :=
  ∀ (compress agrees : Bool) (room left : Nat) (window avail bytes : List Byte) (kind : PartKind) (syms : List PSym)
    (fault begins ends : Bool),
    formPart compress agrees room left window avail = .part kind bytes syms fault →
    decodePart ⟨bytes.length, syms.length, kind, begins, ends⟩ syms window = some (window ++ bytes)
      ∧ bytes = avail.take bytes.length ∧ syms.length ≤ room ∧ (compress = false → kind = .stored ∧ fault = false)
      ∧ (fault = true → kind = .stored)

/-- PACK_RECORD_PART, for the one record at hand with compression off and room in the slot, adds one STORED entry with its bytes,
moves the window and the next object on, empties the staging FIFO and grants its credit. FRAME_PLACE at an open place issues the
next payload frame of its data set, 32,768 bytes with zeros after the last part, or, room and target step standing, frame 0 with
the directory as header, with the next tag at the next place, added to window and trail; frame 0 begins the data set and a
session's Session Open write. With no room on the last wrap and nothing begun it makes End of Medium: stop set, writer
SUSPENDED, ring kept, reported. A failed payload check freezes the drive. VERIFY_FRAME_PASSED: a void tag is a stray; a bad
verdict of an attempt below 4 joins the rewrite queue while it has room; a good one joins the GOOD verdicts. Otherwise the data
set fails: the first time its window and queue entries go, its tags to Void Tags, its record starts afresh, Retried is set and
an Abandon frame is pending; the second time WRITE SUSPENDED, an empty window and queue, the rings and staging buffers kept,
Write Failure latched, the writer SUSPENDED with EOD Current, and the failure reported, or answered to a receiving Write Records
with its records and the deferred flag. Outside WRITING, and with an empty trail, the events change nothing (log entry 2). (R2,
R29, R30, R31, R33, R63, R64, R67, R69, R73, R74, R183; the model's choices: log 2, 17 and 42.) -/
def Obligations.ARecordGoesToTape : Prop :=
  (∀ (agrees : Bool) (tag : Tag) (len : Nat) (bytes : List Byte) (d : Slot) (rest : List Intake) (s : State),
    s.cpe.engine = .idle ∨ s.cpe.engine = .packing → engineBlocked s = false → s.cpe.intake = .record tag len len 0 none true false :: rest →
    0 < len → bytes.length = len → s.dbf.staging = [⟨tag, bytes⟩] → s.cpe.forming = [] → fillingSlot s = some d → s.cpe.compressThisSet = false →
    sumStored d.entries + len ≤ 1048576 → d.entries.length < 8191 →
    let t := packStep agrees s
    exec (.packRecordPart agrees) s = .next (finish t)
      ∧ fillingSlot t = some { d with
          entries := d.entries ++ [.part ⟨len, len, .stored, true, true⟩], payload := d.payload ++ bytes.map .raw }
      ∧ t.cpe.intake = rest ∧ t.cpe.window = s.cpe.window ++ bytes ∧ t.fmc.nextObject = s.fmc.nextObject + 1
      ∧ t.fmc.position = s.fmc.position ∧ t.dbf.staging = [] ∧ t.cpe.forming = [] ∧ t.cpe.faults = s.cpe.faults
      ∧ (s.dlp.link = .up → s.dlp.creditsOut = 31 → t.out = s.out ++ [.credit 1] ∧ t.dlp.creditsOut = 32))
  ∧ (∀ (d : Slot) (s : State), writingNow s = true → s.wch.eodPlan = none → s.wch.wrapPhase = .open_ → frameRoom s.wch.nextPlace = true →
    mayIssue s = true → s.wch.abandon = none → s.wch.rewriteQueue = [] → nextCandidate s = some d → 0 < d.nextIndex → d.state = .writing →
    let t := framePlace true s
    exec (.framePlace true) s = .next (finish t)
      ∧ t.out = s.out ++ [.frame s.wch.nextPlace (.payload s.wch.nextTag d.dsn d.nextIndex
          (padded 32768 ((d.payload.drop ((d.nextIndex - 1) * 32768)).take 32768)))]
      ∧ t.wch.window = s.wch.window ++ [⟨s.wch.nextTag, .data, some d.dsn, some d.nextIndex, 1, s.wch.nextPlace⟩]
      ∧ t.wch.nextTag = (s.wch.nextTag + 1) % 32 ∧ t.wch.nextPlace = s.wch.nextPlace.next
      ∧ t.rch.trail = s.rch.trail ++ [(s.wch.nextPlace, s.wch.nextTag)] ∧ t.wch.rewriteQueue = [] ∧ t.fmc = s.fmc)
  ∧ (∀ bytes : List PSym, bytes.length ≤ 32768 → ∃ n : Nat, padded 32768 bytes = bytes ++ List.replicate n (.raw 0#8)
      ∧ bytes.length + n = 32768)
  ∧ (∀ (d : Slot) (s : State), writingNow s = true → s.wch.eodPlan = none → s.wch.wrapPhase = .open_ → mayIssue s = true →
    frameRoom s.wch.nextPlace = true → s.wch.abandon = none → s.wch.rewriteQueue = [] → nextCandidate s = some d → d.nextIndex = 0 →
    frameZeroOk d.dsn s.dbf.writeRing = true →
    (dataSetRoom ≤ remaining s.wch.nextPlace → s.moc.step = s.sgv.target →
        let t := framePlace true s
        exec (.framePlace true) s = .next (finish t)
          ∧ t.out = s.out ++ [.frame s.wch.nextPlace (.header s.wch.nextTag ⟨d.dsn, d.firstObject.getD 0, d.entries.length, d.entries⟩)]
          ∧ t.wch.window = s.wch.window ++ [⟨s.wch.nextTag, .data, some d.dsn, some 0, 1, s.wch.nextPlace⟩]
          ∧ t.moc.servoLost = 0 ∧ (∀ x ∈ t.dbf.writeRing, x.dsn = d.dsn → x.state = .writing ∧ x.nextIndex = 1)
          ∧ (s.wch.sessionStarted = false → s.cah.sessionOpenMarked = false → t.cah.sessionOpenWrite = some 1))
      ∧ (remaining s.wch.nextPlace < dataSetRoom → lastWrap s ≤ s.wch.nextPlace.wrap → s.rch.trail = [] → s.wch.eodCurrent = true →
        (∀ x ∈ s.dbf.writeRing, x.state ≠ .writing) → s.dlp.queue = [] → s.dlp.run.phase = .notBegun → s.wch.report = none →
        let t := framePlace true s
        exec (.framePlace true) s = .next (finish t) ∧ t.wch.endOfMediumStop = true ∧ t.wch.writer = .suspended
          ∧ t.dbf.writeRing = s.dbf.writeRing ∧ t.dbf.flush = false ∧ t.wch.report = some ⟨.endOfMedium, none, s.fmc.eod.nextObject, held s⟩
          ∧ t.fmc = s.fmc ∧ t.out = s.out))
  ∧ (∀ (slotGood : Bool) (s : State), writingNow s = false → exec (.framePlace slotGood) s = .next (finish s))
  ∧ (∀ s : State, writingNow s = true → takesSlot s = true →
    let t := framePlace false s
    exec (.framePlace false) s = .next (finish t) ∧ t.frg.condition = .faulted ∧ t.wch.window = [] ∧ t.dbf.writeRing = s.dbf.writeRing
      ∧ (s.events.length = 25 → (flagsOf 24 t.events).latched = true)
      ∧ (s.frg.current = none → t.frg.current =
          some [⟨.bufferMemory, .payloadCheck, s.timeBase, s.frg.condition, s.moc.motion, s.cah.state⟩]))
  ∧ (∀ (x : Found) (s : State), s.rch.trail = [] → exec (.verifyFramePassed x) s = .next (finish s))
  ∧ (∀ (x : Found) (p : Place) (tag : Nat) (rest : List (Place × Nat)) (s : State), s.rch.trail = (p, tag) :: rest →
    (tag ∈ s.wch.voidTags → exec (.verifyFramePassed x) s = .next (finish { s with
        rch.trail := rest, wch.voidTags := s.wch.voidTags.erase tag, wch.strays := s.wch.strays + 1 }))
      ∧ (∀ (e : WinEntry) (dsn i : Nat), tag ∉ s.wch.voidTags → s.wch.window.find? (fun e => e.tag == tag) = some e → e.kind = .data →
          e.dsn = some dsn → e.index = some i → verdictGood tag x = false → e.attempt < 4 → s.wch.rewriteQueue.length < 16 →
          exec (.verifyFramePassed x) s = .next (finish { s with
            rch.trail := rest
            wch.window := s.wch.window.filter (fun y => y.tag ≠ tag)
            wch.rewriteQueue := s.wch.rewriteQueue ++ [⟨dsn, i, e.attempt + 1⟩] }))
      ∧ (∀ (e : WinEntry) (dsn i : Nat), tag ∉ s.wch.voidTags → s.wch.window.find? (fun e => e.tag == tag) = some e → e.kind = .data →
          e.dsn = some dsn → e.index = some i → verdictGood tag x = true →
          (∀ d ∈ s.dbf.writeRing, d.good.length < 32 ∧ i ∉ d.good) →
          exec (.verifyFramePassed x) s = .next (finish { s with
            rch.trail := rest
            wch.window := s.wch.window.filter (fun y => y.tag ≠ tag)
            dbf.writeRing := s.dbf.writeRing.map (fun d => if d.dsn = dsn then { d with good := d.good ++ [i] } else d) }))
      ∧ (∀ (e : WinEntry) (dsn : Nat) (d : Slot), tag ∉ s.wch.voidTags → s.wch.window.find? (fun e => e.tag == tag) = some e →
          e.kind = .data → e.dsn = some dsn → verdictGood tag x = false → 4 ≤ e.attempt ∨ 16 ≤ s.wch.rewriteQueue.length →
          writeSlot dsn s = some d →
          let t := verifyFrame x s
          let own (y : WinEntry) : Bool := y.kind == .data && y.dsn == some dsn
          let left := s.wch.window.filter (fun y => y.tag ≠ tag)
          exec (.verifyFramePassed x) s = .next (finish t)
            ∧ (d.retried = false → t.wch.window = left.filter (fun y => !own y)
              ∧ t.wch.voidTags = s.wch.voidTags ++ (left.filter own).map (fun y => y.tag)
              ∧ t.wch.rewriteQueue = s.wch.rewriteQueue.filter (fun y => y.dsn ≠ dsn)
              ∧ t.wch.retries = s.wch.retries + 1 ∧ t.wch.abandon = some (dsn, 1)
              ∧ t.dbf.writeRing = s.dbf.writeRing.map (fun y => if y.dsn = dsn then { y with
                  nextIndex := 0, good := [], attempts := List.replicate 33 1, retried := true, awaitAbandon := true } else y)
              ∧ t.fmc = s.fmc ∧ t.out = s.out)
            ∧ (d.retried = true → t.cah.mode = some .writeSuspended ∧ t.wch.window = []
              ∧ t.wch.voidTags = s.wch.voidTags ++ left.map (fun y => y.tag) ∧ t.wch.rewriteQueue = [] ∧ t.wch.abandon = none
              ∧ t.dbf.flush = false ∧ t.dbf.writeRing = s.dbf.writeRing ∧ t.dbf.staging = s.dbf.staging
              ∧ (s.events.length = 25 → (flagsOf 11 t.events).latched = true)
              ∧ (s.wch.eodCurrent = true → t.wch.writer = .suspended)
              ∧ (s.dlp.queue = [] → s.dlp.run.phase = .notBegun → s.wch.report = none →
                  t.wch.report = some ⟨.writeFailure, some dsn, s.fmc.eod.nextObject, held s⟩)
              ∧ (∀ (q : QEntry) (u : Bool) (ls : List Nat), s.dlp.queue = [q] → q.cmd = .writeRecords u ls → s.dlp.run.phase = .receiving →
                  s.dlp.run.mute = false → s.dlp.run.answered = false → s.dlp.link = .up →
                  t.dlp.queue = [] ∧ t.wch.report = s.wch.report ∧ t.out = s.out ++ [.reply q.tag
                    ⟨.sense (reportSense ⟨.writeFailure, some dsn, s.fmc.eod.nextObject, held s⟩ (s.dlp.run.accepted < held s)),
                      .records s.dlp.run.accepted s.fmc.position⟩]))))

/-- Committing the head of the write ring frees its slot, moves the EOD position past its last frame with its DSN and the object
after its entries, raises Records Committed by the records that end in it past the carried entries, Filemarks Committed by its
filemarks, Data Sets Committed by one and Rewrite Frames by its frames less 33, updates the directory, clears EOD Current, and
moves the HCI by the sample of its rewrites; what was accepted, Position and what was sent are as before. The note of an unended
part in the EOD position and the directory entry, which R12 and R13 do not list, is the model's own (log entry 6). (R13, R71,
R152, R153; the model's choices: log 6.) -/
def Obligations.SettledDataSetCommits : Prop :=
  ∀ (d : Slot) (rest : List Slot) (p : Place) (first : Nat) (s : State), s.dbf.writeRing = d :: rest → d.endPlace = some p → d.firstObject = some first →
    let t := commitSlot d s
    t.dbf.writeRing = rest ∧ t.fmc.eod = ⟨p.wrap, p.next.lpos, some d.dsn, objectAfter first d.entries, lastUnended d.entries⟩
      ∧ t.fmc.committed = s.fmc.committed + countEnds (d.entries.drop d.carried)
      ∧ t.fmc.filemarks = s.fmc.filemarks + countFilemarks d.entries
      ∧ t.fmc.directory = directoryCommit p.wrap d.dsn first s.fmc.filemarks (lastUnended d.entries) s.fmc.directory
      ∧ t.wch.eodCurrent = false ∧ t.wch.dataSetsCommitted = s.wch.dataSetsCommitted + 1
      ∧ t.wch.rewriteFrames = s.wch.rewriteFrames + (d.written - 33)
      ∧ t.hcm.hci = (15 * s.hcm.hci + min 1000 ((d.written - 33) * 1000 / 33)) / 16
      ∧ t.fmc.accepted = s.fmc.accepted ∧ t.fmc.position = s.fmc.position ∧ t.out = s.out

/-- While collecting, with room on the wrap: a payload frame of the wanted DSN with a new index is held; a frame of an earlier DSN
and an unreadable frame are only passed; an Abandon frame of the wanted DSN empties the collector. The 33rd index with a
consistent header that follows completes the data set: READY with the header's figures, Expected Object after it, Data Sets Read
and, after the ladder, Recovered Data Sets raised, the sample of the frames missing after pass 0 given, and reading resumed from
where the last pass ended; a header that fails gives a Format Error: READY and Unrecoverable, counted, Read Failure latched,
Expected Object absent. A frame of DSN d + 2 or more ends pass 0 into RECOVER at pass 1 and each pass into the next, with speed
and offset by the table; after pass 6 the slot is READY and Unreadable with the header's figures where held, counted, with the
sample 1000, Read-Ahead STOPPED and the Resume Place there. A valid EOD frame before any frame of d is the end of recorded data:
the slot is free and Read-Ahead STOPPED. CHECK_DECODE_DONE marks a data set that decodes as checked, with the window up to the
drain pointer; one that does not counts as Unrecovered and latches Read Failure; a failed payload check freezes the drive. With
nothing collecting or DRAINING the events change nothing (log entry 2). Counting that Format Error is the model's reading (log
entry 21). (R38, R39, R86, R88, R89, R90, R91, R92, R94, R95, R183, R187; the model's choices: log 2, 20 and 21.) -/
def Obligations.FramesReadAndDecoded : Prop :=
  (∀ (l : Nat) (x : Found) (s : State), collectingNow s = false → exec (.readFramePassed l x) s = .next (finish s))
  ∧ (∀ (l tag dsn i : Nat) (syms : List PSym) (c : Collector) (s : State), collectingNow s = true → s.rch.current = some c →
    s.dlp.run.aborting = false → ¬(remaining ⟨s.moc.wrap.getD 0, l⟩ < 328) →
    (dsn = c.dsn → c.held.length < 32 → c.held.any (fun f => f.index == i) = false →
        exec (.readFramePassed l (.readable (.payload tag dsn i syms))) s = .next (finish { s with
          moc.lpos := some l
          rch.lastTaken := some ⟨s.moc.wrap.getD 0, l⟩
          rch.blanks := 0
          rch.current := some { c with
            held := c.held ++ [⟨i, syms⟩]
            header := if i = 0 then none else c.header
            lastPlace := some (furtherPlace c.lastPlace ⟨s.moc.wrap.getD 0, l⟩)
            began := some (beganAt c.began ⟨s.moc.wrap.getD 0, l⟩)
            copyStart := match c.copyStart with
              | none => some ⟨s.moc.wrap.getD 0, l⟩
              | some q => if q.wrap = s.moc.wrap.getD 0 then some q else some ⟨s.moc.wrap.getD 0, l⟩ } }))
      ∧ (dsn < c.dsn → exec (.readFramePassed l (.readable (.payload tag dsn i syms))) s =
          .next (finish { s with moc.lpos := some l, rch.lastTaken := some ⟨s.moc.wrap.getD 0, l⟩, rch.blanks := 0 }))
      ∧ exec (.readFramePassed l .unreadable) s =
          .next (finish { s with moc.lpos := some l, rch.lastTaken := some ⟨s.moc.wrap.getD 0, l⟩, rch.blanks := 0 })
      ∧ exec (.readFramePassed l (.readable (.abandon tag c.dsn))) s = .next (finish { s with
          moc.lpos := some l
          rch.lastTaken := some ⟨s.moc.wrap.getD 0, l⟩
          rch.blanks := 0
          rch.current := some { c with
            held := [], header := none, lastPlace := none, copyStart := some (Place.next ⟨s.moc.wrap.getD 0, l⟩) } })
      ∧ (∀ h : Header, dsn = c.dsn → i ≠ 0 → c.held.length = 32 → c.held.any (fun f => f.index == i) = false → c.header = some h →
          s.dbf.readAheadActive = false →
          let t := readBoundary l (.readable (.payload tag dsn i syms)) s
          let m := c.missing.getD 0
          exec (.readFramePassed l (.readable (.payload tag dsn i syms))) s = .next (finish t)
            ∧ t.rch.duty = .idle ∧ t.rch.current = none ∧ t.rch.next = none ∧ t.rch.targetRead = false ∧ t.fmc = s.fmc
            ∧ t.hcm.hci = (15 * s.hcm.hci + min 1000 (m * 1000 / 33)) / 16 ∧ t.hcm.samples = s.hcm.samples + 1
            ∧ (h.consistent = true → s.rch.expected = none ∨ s.rch.expected = some h.firstObject →
                t.rch.expected = some h.after ∧ t.rch.dataSetsRead = s.rch.dataSetsRead + 1
                ∧ t.rch.recovered = s.rch.recovered + (if 0 < c.passNumber then 1 else 0) ∧ t.rch.unrecovered = s.rch.unrecovered
                ∧ (∀ x ∈ t.dbf.readRing, x.dsn = c.dsn → x.state = .ready ∧ x.firstObject = some h.firstObject
                    ∧ x.objectAfter = some h.after ∧ x.entries = h.entries ∧ (x.recovered = true ↔ 0 < c.passNumber))
                ∧ (s.rch.duty = .recover → s.rch.lastEndFinal = false → s.rch.lastEnd ≠ none → t.rch.resume = s.rch.lastEnd))
            ∧ (h.consistent = false ∨ (∃ e, s.rch.expected = some e ∧ e ≠ h.firstObject) →
                t.rch.expected = none ∧ t.rch.dataSetsRead = s.rch.dataSetsRead ∧ t.rch.unrecovered = s.rch.unrecovered + 1
                ∧ (s.events.length = 25 → (flagsOf 12 t.events).latched = true)
                ∧ (∀ x ∈ t.dbf.readRing, x.dsn = c.dsn → x.state = .ready ∧ x.unrecoverable = some .formatError)))
      ∧ (c.dsn + 2 ≤ dsn →
          let t := readBoundary l (.readable (.payload tag dsn i syms)) s
          exec (.readFramePassed l (.readable (.payload tag dsn i syms))) s = .next (finish t) ∧ t.fmc = s.fmc
            ∧ (s.rch.duty = .collect → t.rch.duty = .recover ∧ t.rch.offset = .none
                ∧ t.rch.pass0Step = s.moc.step ∧ t.rch.passStep = min s.moc.step (capOf s)
                ∧ t.rch.current = some { c with laterMet := true, missing := some (33 - c.held.length), passNumber := 1 })
            ∧ (s.rch.duty = .recover → 1 ≤ c.passNumber → c.passNumber < 6 → t.rch.duty = .recover
                ∧ t.rch.current = some { c with laterMet := true, passNumber := c.passNumber + 1 }
                ∧ t.rch.offset = (if c.passNumber = 2 ∨ c.passNumber = 4 then .positive
                    else if c.passNumber = 3 ∨ c.passNumber = 5 then .negative else .none)
                ∧ t.rch.passStep = (if c.passNumber = 1 ∨ c.passNumber = 4 ∨ c.passNumber = 5 then 1
                    else min s.rch.pass0Step (capOf s)))
            ∧ (s.rch.duty = .recover → c.passNumber = 6 → t.rch.duty = .idle ∧ t.rch.offset = .none
                ∧ t.rch.unrecovered = s.rch.unrecovered + 1 ∧ t.rch.expected = c.header.map (fun h => h.after)
                ∧ t.rch.next = none ∧ t.rch.resume = some ⟨s.moc.wrap.getD 0, l⟩ ∧ t.dbf.readAheadActive = false
                ∧ t.hcm.hci = (15 * s.hcm.hci + 1000) / 16
                ∧ (∀ x ∈ t.dbf.readRing, x.dsn = c.dsn → x.state = .ready ∧ x.unrecoverable = some .unreadable
                    ∧ x.firstObject = c.header.map (fun h => h.firstObject))
                ∧ (s.events.length = 25 → (flagsOf 12 t.events).latched = true)))
      ∧ (∀ after : Nat, c.held = [] → c.laterMet = false → s.rch.next = none → readExecuting s = false →
          let f : Found := .readable (.eod tag (if c.dsn = 0 then none else some (c.dsn - 1)) after)
          let t := readBoundary l f s
          exec (.readFramePassed l f) s = .next (finish t) ∧ t.rch.duty = .idle ∧ t.rch.current = none
            ∧ t.dbf.readRing = s.dbf.readRing.filter (fun d => d.dsn ≠ c.dsn) ∧ t.dbf.readAheadActive = false ∧ t.fmc = s.fmc
            ∧ t.rch.unrecovered = s.rch.unrecovered ∧ t.out = s.out))
  ∧ (∀ s : State, drainingSlot s = none ∨ s.cpe.checked = true → ∀ ok, exec (.checkDecodeDone ok) s = .next (finish s))
  ∧ (∀ (d : Slot) (s : State), drainingSlot s = some d → s.cpe.checked = false →
    ((decodeDataSet d.entries d.payload).isSome = true →
        let t := decodeEnds true s
        exec (.checkDecodeDone true) s = .next (finish t) ∧ t.cpe = { s.cpe with checked := true, window := t.cpe.window }
          ∧ t = { s with cpe := t.cpe }
          ∧ (s.cpe.engine = .unpacking → s.dlp.run.decoded = 0 → s.dlp.run.partDone = 0 →
              t.cpe.window = bytesBefore false s.fmc.position (slotObjects d)))
      ∧ (decodeDataSet d.entries d.payload = none →
          let t := decodeEnds true s
          exec (.checkDecodeDone true) s = .next (finish t) ∧ t.rch.unrecovered = s.rch.unrecovered + 1 ∧ t.dbf.readRing = []
            ∧ t.dbf.readAheadActive = false ∧ (s.events.length = 25 → (flagsOf 12 t.events).latched = true))
      ∧ (let t := decodeEnds false s
         exec (.checkDecodeDone false) s = .next (finish t) ∧ t.frg.condition = .faulted ∧ t.dbf.readRing = []
          ∧ (s.events.length = 25 → (flagsOf 24 t.events).latched = true)))

/-- HEADER_SCAN_FRAME in a Locate's scan: a consistent header that follows what was known and holds the object has the tape brought
before the data set; one before the object is noted and the scan goes on; one not consistent is passed over; a stale EOD frame
is passed over. REBUILD_FRAME, with 73.8 mm or more of the wrap after the frame or on the last wrap: a header with the expected
DSN and object, consistent in itself, is accepted; a stale EOD frame is passed over; an Abandon frame after which less than 73.8
mm remain of a wrap that is not the last has the tape turn to the next wrap; an EOD frame after the last accepted data set ends
the pass with the directory of what was accepted, Directory Valid and EOD Current set, the EOD position at the place after it
and Directory Rebuilt latched. A header read again after a reacquisition leaves the Servo Lost Count. A pass that needed the
ladder for a header and got an unreadable data set fails: no pass, Directory Valid as it was, Read Failure. With no scan or pass
running, and no abort, the events change nothing (log entry 2). The EOD position's place (log entry 25) and its unended note
(log entry 6) are the model's. (R5, R6, R15, R16, R17, R97, R98, R119; the model's choices: log 2, 6 and 25.) -/
def Obligations.ScansMeetHeaders : Prop :=
  (∀ (l : Nat) (x : Found) (s : State), s.dlp.run.aborting = false →
    (scanningNow s = false → exec (.headerScanFrame l x) s = .next (finish s))
      ∧ (rebuildingNow s = false → exec (.rebuildFrame l x) s = .next (finish s)))
  ∧ (∀ (l tag t : Nat) (h : Header) (c : Scan) (s : State), s.dlp.run.aborting = false → scanningNow s = true → s.rch.scan = some c →
    c.goal = .object t → c.last = none → beyondEod h.dsn s = false →
    (h.consistent = false → scanAtEnd c.forward ⟨s.moc.wrap.getD 0, l⟩ = false →
        let t := scanBoundary l (.readable (.header tag h)) s
        exec (.headerScanFrame l (.readable (.header tag h))) s = .next (finish t)
          ∧ t.rch.scan.map (fun x => (x.goal, x.last, x.due, x.lastRead)) = some (c.goal, c.last, c.due, some ⟨s.moc.wrap.getD 0, l⟩)
          ∧ t.rch.duty = .scan ∧ t.fmc = s.fmc ∧ t.moc = { s.moc with
              lpos := some l, servoLost := if c.lastRead = some ⟨s.moc.wrap.getD 0, l⟩ then s.moc.servoLost else 0 })
      ∧ (h.consistent = true → (∀ x, c.due = some x → x.dsn = h.dsn ∧ (x.object = none ∨ x.object = some h.firstObject)) →
    (h.holds t = true →
        let u := scanBoundary l (.readable (.header tag h)) s
        exec (.headerScanFrame l (.readable (.header tag h))) s = .next (finish u)
          ∧ u.dlp.run.phase = .moving ∧ u.rch.duty = .idle ∧ u.rch.scan.map (fun x => x.goal) = some (.object t)
          ∧ u.moc.servoLost = (if c.lastRead = some ⟨s.moc.wrap.getD 0, l⟩ then s.moc.servoLost else 0)
          ∧ u.moc.operation.map (fun op => (op.work, op.aim))
              = some (.found, some ((c.meet h.dsn ⟨s.moc.wrap.getD 0, l⟩).beganAt h.dsn ⟨s.moc.wrap.getD 0, l⟩))
          ∧ u.fmc = s.fmc ∧ u.out = s.out)
      ∧ (h.holds t = false → h.passed t = false → scanAtEnd c.forward ⟨s.moc.wrap.getD 0, l⟩ = false →
        exec (.headerScanFrame l (.readable (.header tag h))) s = .next (finish { s with
          moc.lpos := some l
          moc.servoLost := if c.lastRead = some ⟨s.moc.wrap.getD 0, l⟩ then s.moc.servoLost else 0
          rch.scan := some { (c.meet h.dsn ⟨s.moc.wrap.getD 0, l⟩) with
            blanks := 0
            lastRead := some ⟨s.moc.wrap.getD 0, l⟩
            last := some ⟨h, (c.meet h.dsn ⟨s.moc.wrap.getD 0, l⟩).beganAt h.dsn ⟨s.moc.wrap.getD 0, l⟩⟩ } }))))
  ∧ (∀ (l tag : Nat) (h : Header) (r : Rebuild) (s : State), s.dlp.run.aborting = false → rebuildingNow s = true → s.rch.rebuild = some r →
    scanAtEnd true ⟨s.moc.wrap.getD 0, l⟩ = false →
    (s.moc.wrap.getD 0 < lastWrap s → 7544 ≤ remaining ⟨s.moc.wrap.getD 0, l⟩) → h.dsn = r.expectedDsn → h.consistent = true → h.firstObject = r.expectedObject →
    (∀ a ∈ r.accepted, a.dsn < r.expectedDsn) →
    exec (.rebuildFrame l (.readable (.header tag h))) s = .next (finish { s with
      moc.lpos := some l
      moc.servoLost := if r.lastRead = some ⟨s.moc.wrap.getD 0, l⟩ then s.moc.servoLost else 0
      rch.rebuild := some { r with
        blanks := 0
        unread := 0
        unreadFrom := none
        lastRead := some ⟨s.moc.wrap.getD 0, l⟩
        expectedDsn := r.expectedDsn + 1
        expectedObject := h.after
        accepted := ⟨h.dsn, s.moc.wrap.getD 0, h.firstObject, h.after, countFilemarks h.entries, lastUnended h.entries,
          ⟨s.moc.wrap.getD 0, l⟩, ⟨s.moc.wrap.getD 0, l⟩⟩ :: r.accepted } }))
  ∧ (∀ (l tag next : Nat) (r : Rebuild) (a : Accepted) (older : List Accepted) (s : State), s.dlp.run.aborting = false → rebuildingNow s = true →
    s.rch.rebuild = some r → r.accepted = a :: older →
    let t := rebuildBoundary l (.readable (.eod tag (some a.dsn) next)) s
    exec (.rebuildFrame l (.readable (.eod tag (some a.dsn) next))) s = .next (finish t)
      ∧ t.fmc.directoryValid = true
      ∧ t.fmc.eod = ⟨(eodFirstPlace r ⟨s.moc.wrap.getD 0, l⟩).wrap, (eodFirstPlace r ⟨s.moc.wrap.getD 0, l⟩).lpos, some a.dsn, a.objectAfter,
          a.unended⟩
      ∧ t.fmc.directory = directoryOf r.accepted.reverse 0 [] ∧ t.rch.rebuild = none ∧ t.rch.duty = .idle ∧ t.wch.eodCurrent = true
      ∧ (s.events.length = 25 → (flagsOf 14 t.events).latched = true) ∧ t.moc.motion = .ramping ∧ t.out = s.out)
  ∧ (∀ (l tag next : Nat) (named : Option Nat) (c : Scan) (s : State), s.dlp.run.aborting = false → scanningNow s = true →
    s.rch.scan = some c → scanAtEnd c.forward ⟨s.moc.wrap.getD 0, l⟩ = false → c.forward = false ∨ scanEodFor named c s = .stale →
    exec (.headerScanFrame l (.readable (.eod tag named next))) s = .next (finish { s with
      moc.lpos := some l
      rch.scan := some { c with blanks := 0 } }))
  ∧ (∀ (l tag next : Nat) (named : Option Nat) (r : Rebuild) (s : State), s.dlp.run.aborting = false → rebuildingNow s = true →
    s.rch.rebuild = some r → scanAtEnd true ⟨s.moc.wrap.getD 0, l⟩ = false → eodValid named (r.accepted.head?.map (fun a => a.dsn)) = false →
    (s.moc.wrap.getD 0 < lastWrap s → 7544 ≤ remaining ⟨s.moc.wrap.getD 0, l⟩) →
    exec (.rebuildFrame l (.readable (.eod tag named next))) s = .next (finish { s with
      moc.lpos := some l
      rch.rebuild := some { r with blanks := 0, unread := 0, unreadFrom := none } }))
  ∧ (∀ (l tag dsn : Nat) (r : Rebuild) (s : State), s.dlp.run.aborting = false → rebuildingNow s = true → s.rch.rebuild = some r →
    s.moc.wrap.getD 0 < lastWrap s → remaining ⟨s.moc.wrap.getD 0, l⟩ < 7544 →
    exec (.rebuildFrame l (.readable (.abandon tag dsn))) s = .next (finish { s with
      moc.lpos := some l
      moc.motion := .turnaround
      moc.turnarounds := s.moc.turnarounds + 1
      moc.restsFor := none
      moc.phaseTime := 0
      moc.operation := some ⟨.rebuilding, some (wrapStart (s.moc.wrap.getD 0 + 1)), [.turnaround, .ramp (some r.step)], false⟩
      rch.rebuild := some { r with blanks := 0, unread := 0, unreadFrom := none } }))
  ∧ (∀ (r : Rebuild) (d : Slot) (s : State), s.rch.rebuild = some r → s.rch.duty = .idle → s.rch.collectFor = .rebuildHeader →
    s.dbf.readRing.getLast? = some d → d.unrecoverable = some .unreadable → s.dlp.run.mute = false → s.dlp.run.answered = false →
    (rebuildHelpEnded s).rch.rebuild = none ∧ (rebuildHelpEnded s).fmc.directoryValid = s.fmc.directoryValid
      ∧ (rebuildHelpEnded s).dlp.queue = s.dlp.queue.tail
      ∧ (∀ q, s.dlp.queue.head? = some q → ∃ (x : Sense) (r : Results), x.reason = .readFailure ∧
          (.reply q.tag ⟨.sense x, r⟩ : Output) ∈ (rebuildHelpEnded s).out))
end

