-- ==== Sys2Proof/Laws/Calm.lean ====
section
/-! SUPPORT. In a calm state the blocks have nothing to take up, block by block. -/

namespace Sys2Proof.Machine
variable {s : State}

/-- A calm engine stays as it is (R23). -/
theorem settleEngine_calm (h : Calm s) : settleEngine s = s := by
  unfold settleEngine
  rcases h.engine with e | e | e | ⟨e, c, n, w⟩
  · simp [e]
  · simp [e]
  · simp [e]
  · have hd : ∀ k, drainFrom k s = s := by
      intro k
      cases k with
      | zero => rfl
      | succ k =>
        unfold drainFrom noFilemarkNext at *
        rw [c]
        split <;> simp_all
    have hs : slotWaits s = false := by simp [slotWaits, e]
    split
    · rfl
    · simp only [e, hs, hd, if_false, Bool.false_eq_true]
      rw [← w]

/-- A calm write side stays as it is (R54, R55, R72, R78, R87). -/
theorem settleWrite_calm (h : Calm s) : settleWrite s = s := by
  unfold settleWrite
  rw [settleEngine_calm h]
  have h1 : startWriter s = s := by
    unfold startWriter
    split
    · rename_i hc; have := h.start hc.1; simp_all
    · rfl
  have h2 : writerIdle s = s := by
    unfold writerIdle
    split
    · rename_i hc
      obtain ⟨-, h1 | h1⟩ := h.writing hc.1
      · exact absurd hc.2.1 h1
      · rw [hc.2.2.2] at h1; cases h1
    · rfl
  have h3 : checkWrap s = s := by
    unfold checkWrap
    split
    · rfl
    · rename_i hc
      simp only [not_or, not_not] at hc
      have := (h.writing hc.1).1
      simp [this]
  have h4 : askWriter s = s := by
    unfold askWriter
    simp [h.starting]
  have h5 : settleDuty s = s := by
    unfold settleDuty
    split
    · rename_i hc; have := h.verify hc.1; simp_all
    · rfl
  have h6 : settleFlush s = s := by
    unfold settleFlush
    simp [h.flush]
  rw [h1, h2, h3, h4, h5, h6]

/-- A calm read side stays as it is (R56, R89, R92, R97, R112, R114). -/
theorem settleRead_calm (h : Calm s) : settleRead s = s := by
  unfold settleRead
  have hh := h.head
  have hr : readExecuting s = false := by
    unfold readExecuting
    unfold waitsForEvent at hh
    cases hp : s.dlp.run.phase <;> simp_all
  have h1 : helpEnded s = s := by
    unfold helpEnded
    split
    · rename_i h2 h3; exact absurd h3 (h.help h2).1
    · rfl
  have h2 : rebuildHelpEnded s = s := by
    unfold rebuildHelpEnded
    split
    · rename_i h2 h3; exact absurd h3 (h.help h2).2.1
    · rename_i h2 h3; exact absurd h3 (h.help h2).2.2
    · rfl
  have h3 : settleReader s = s := by
    unfold settleReader
    have a : beginForward s = s := by
      unfold beginForward aheadWants readNeeds
      have := h.ahead
      cases hA : s.dbf.readAheadActive <;> simp_all
      split <;> simp_all
    rw [a]
    have b : completeCurrent s = s := by
      unfold completeCurrent completeFrom
      have := h.current
      split
      · rfl
      · rename_i c hc
        simp_all
    rw [b]
    unfold askReader
    split
    · rename_i hc; have := h.collecting hc.1; simp_all
    · rfl
  have h4 : settleMotion s = s := by
    unfold settleMotion
    split
    · rename_i hc
      have := h.streaming hc.1 hc.2
      split <;> simp_all <;> grind
    · rfl
  have h5 : seekForRead s = s := by
    unfold seekForRead aheadWants
    have := h.ahead
    cases hA : s.dbf.readAheadActive <;> simp_all
    intro hn
    simp_all
  rw [h1, h2, h3, h5, h4]

/-- Calm blocks stay as they are. -/
theorem settleBlocks_calm (h : Calm s) : settleBlocks s = s := by
  unfold settleBlocks
  rw [settleWrite_calm h, settleRead_calm h]
  have h1 : settleDirection s = s := by
    unfold settleDirection
    have := h.write
    have := h.read
    split <;> simp_all
  have h2 : settleLibraryUnthread s = s := by
    unfold settleLibraryUnthread
    split
    · split
      · rename_i hc; have := h.media hc.2.2; simp_all
      · rfl
    · rfl
  have h3 : settleReset s = s := by
    unfold settleReset
    simp [h.reset]
  rw [h1, h2, h3]

end Sys2Proof.Machine
end

