-- ==== Sys2Proof/Laws/Keeps.lean ====
section
/-! SUPPORT. What every operation of the model keeps, stated once: `Keeps P z s` says that `s`, reached from `z`, has the commands
waiting, the jumpers, the clock and the store of `z`, has sent what `z` had sent and perhaps more, and is sound where `P` holds. The
lemmas on single parts of the state stand here; those on the operations stand in the files that follow the model's own. -/

namespace Sys2Proof.Machine

structure KeepsOf (P : Prop) (p : List Instr) (j : Jumpers) (now : Nat) (d : Stored) (o : List Output)
    (p' : List Instr) (j' : Jumpers) (now' : Nat) (d' : Stored) (o' : List Output) (es : List EventFlags) (h : Hcm) (headCap : Nat)
    (g : Sgv) (formatCap conditionCap staged creditsOut receiveCredits crcRun limit nextTag : Nat) (q : List QEntry)
    (r : Option (List FaultEntry)) : Prop where
  pending : p' = p
  jumpers : j' = j
  time : now' = now
  stored : d' = d
  out : o <+: o'
  sound : P → SoundOf es h headCap g formatCap conditionCap staged creditsOut receiveCredits crcRun limit nextTag q r

/-- What every operation but a reset, the clock and the end of a store write keeps. -/
abbrev Keeps (P : Prop) (z s : State) : Prop :=
  KeepsOf P z.pending z.jumpers z.timeBase z.pst.stored z.out s.pending s.jumpers s.timeBase s.pst.stored s.out s.events s.hcm
    s.moc.conditionCap s.sgv s.moc.formatCap s.moc.conditionCap s.dbf.staging.length s.dlp.creditsOut s.dlp.receiveCredits
    s.dlp.crcRun s.dbf.readAheadLimit s.wch.nextTag s.dlp.queue s.frg.current

/-- The same with another head condition than the state's: it stands between the steps of a rise of the level. -/
abbrev KeepsBut (P : Prop) (k : Hcm) (cap : Nat) (z s : State) : Prop :=
  KeepsOf P z.pending z.jumpers z.timeBase z.pst.stored z.out s.pending s.jumpers s.timeBase s.pst.stored s.out s.events k
    cap s.sgv s.moc.formatCap s.moc.conditionCap s.dbf.staging.length s.dlp.creditsOut s.dlp.receiveCredits
    s.dlp.crcRun s.dbf.readAheadLimit s.wch.nextTag s.dlp.queue s.frg.current

/-- A state keeps what it is itself. -/
theorem Keeps.refl {P : Prop} {s : State} (h : P → Sound s) : Keeps P s s := ⟨rfl, rfl, rfl, rfl, List.prefix_refl _, h⟩

/-- A frame that passes the framing test ends a run of bad checks (R166). -/
theorem Keeps.checked {P : Prop} {z s : State} (h : Keeps P z s) : Keeps P z { s with dlp.crcRun := 0 } :=
  { h with sound := fun p => { h.sound p with checks := Nat.zero_lt_succ _ } }

/-! ## Events -/

theorem EventFlags.latch_sound {f : EventFlags} (h : f.Sound) : f.latch.Sound := by
  obtain ⟨h1, h2, h3⟩ := h
  unfold EventFlags.latch
  split
  · exact ⟨by simp only; omega, by simp_all, h3⟩
  · exact ⟨by simp, by simp, by simp⟩

theorem EventFlags.clear_sound {f : EventFlags} : f.clear.Sound := by simp [EventFlags.Sound, EventFlags.clear]

theorem EventFlags.mask_sound {f : EventFlags} (h : f.Sound) : f.mask.Sound := ⟨h.1, h.2.1, by simp [EventFlags.mask]⟩

theorem EventFlags.unmask_sound {f : EventFlags} (h : f.Sound) : f.unmask.Sound := by
  refine ⟨h.1, h.2.1, fun hp => ?_⟩
  simp only [EventFlags.unmask, Bool.or_eq_true] at hp ⊢
  exact hp.elim h.2.2 id

theorem EventFlags.toMask_sound {w : Bool} {f : EventFlags} (h : f.Sound) : (f.toMask w).Sound := by
  unfold EventFlags.toMask
  split
  · exact h
  · split
    · exact EventFlags.mask_sound h
    · exact EventFlags.unmask_sound h

theorem changeEvent_sound {n : Nat} {g : EventFlags → EventFlags} {es : List EventFlags}
    (hg : ∀ f, EventFlags.Sound f → (g f).Sound) (h : EventsSound es) : EventsSound (changeEvent n g es) := by
  refine ⟨by simpa [changeEvent] using h.1, fun f hf => ?_⟩
  obtain ⟨i, hi⟩ := List.mem_iff_getElem?.1 hf
  rw [changeEvent, List.getElem?_modify] at hi
  cases hx : es[i]? with
  | none => simp [hx] at hi
  | some y =>
    have hy := h.2 y (List.mem_of_getElem? hx)
    simp only [hx, Option.map_eq_map, Option.map_some, Option.some.injEq] at hi
    subst hi
    split
    · exact hg _ hy
    · exact hy

theorem changeEvents_sound {ns : List Nat} {g : EventFlags → EventFlags} {es : List EventFlags}
    (hg : ∀ f, EventFlags.Sound f → (g f).Sound) (h : EventsSound es) : EventsSound (changeEvents ns g es) := by
  induction ns generalizing es with
  | nil => exact h
  | cons n ns ih => exact ih (changeEvent_sound hg h)

theorem map_sound {g : EventFlags → EventFlags} {es : List EventFlags} (hg : ∀ f, EventFlags.Sound f → (g f).Sound)
    (h : EventsSound es) : EventsSound (es.map g) := by
  refine ⟨by simpa using h.1, fun f hf => ?_⟩
  obtain ⟨x, hx, rfl⟩ := List.mem_map.1 hf
  exact hg _ (h.2 x hx)

theorem clearPending_sound {es : List EventFlags} (h : EventsSound es) : EventsSound (clearPending es) :=
  map_sound (fun _ h => ⟨h.1, h.2.1, by simp⟩) h

theorem withMask_sound {m : Option (List Bool)} {es : List EventFlags} (h : EventsSound es) : EventsSound (withMask m es) := by
  unfold withMask
  split
  · exact map_sound (fun _ h => h) h
  · refine ⟨by simpa using h.1, fun f hf => ?_⟩
    obtain ⟨x, hx, rfl⟩ := List.mem_map.1 hf
    exact h.2 x.1 (List.fst_mem_of_mem_zipIdx hx)

/-! ## Fault records, samples, staging -/

theorem replaceLowest_length (x : FaultEntry) (low : Nat) (l : List FaultEntry) : (replaceLowest x low l).length = l.length := by
  induction l with
  | nil => rfl
  | cons e l ih =>
    unfold replaceLowest
    split <;> simp [ih]

theorem enterFault_length {x : FaultEntry} {l l' : List FaultEntry} (hl : l.length ≤ 4) (h : enterFault x l = some l') :
    l'.length ≤ 4 := by
  unfold enterFault at h
  split at h
  · cases h; simp; omega
  · split at h
    · cases h; rw [replaceLowest_length]; exact hl
    · cases h

theorem sampleOf_le (n : Nat) : sampleOf n ≤ 1000 := Nat.min_le_left _ _

theorem hciAfter_le {hci n : Nat} (h : hci ≤ 1000) (hn : n ≤ 1000) : hciAfter hci n ≤ 1000 := by
  unfold hciAfter; omega

theorem takeStaged_length (n : Nat) (l : List Staging) : (takeStaged n l).2.length ≤ l.length := by
  induction l generalizing n with
  | nil => simp [takeStaged]
  | cons b l ih =>
    unfold takeStaged
    split
    · simp
    · exact Nat.le_succ_of_le (ih _)

/-! ## The head condition and the governor -/

theorem level_calls (l : Level) : (l != .normal) = true ↔ l ≠ .normal := by cases l <;> decide

theorem levelCap_range (l : Level) : 2 ≤ levelCap l ∧ levelCap l ≤ 6 := by cases l <;> decide

theorem formatCapOf_range (m : Mode) : 4 ≤ formatCapOf m := by
  unfold formatCapOf
  split <;> decide

theorem cap_pos {f c : Nat} (hf : 4 ≤ f) (hc : 2 ≤ c) : 1 ≤ min 6 (min f c) := by omega

theorem ratioStage_range {crs u c : Nat} (h : 256 ≤ crs ∧ crs ≤ 8192) : 256 ≤ ratioStage crs u c ∧ ratioStage crs u c ≤ 8192 := by
  unfold ratioStage clampTo
  split <;> omega

theorem rateStage_le {hs : Option Nat} {b t : Nat} (h : ∀ x, hs = some x → x ≤ 320000) :
    ∀ x, rateStage hs b t = some x → x ≤ 320000 := by
  intro x hx
  unfold rateStage at hx
  split at hx
  · dsimp only at hx
    split at hx
    · cases hx; exact Nat.min_le_left _ _
    · rename_i old
      have := h old rfl
      cases hx
      omega
  · exact h x hx

theorem lowestStep_range (n : Nat) : 1 ≤ lowestStep n ∧ lowestStep n ≤ 6 := by
  unfold lowestStep
  repeat' split
  all_goals decide

theorem choose_sound {n f c : Nat} {g : Sgv} (h : GovernorSound g f c) (h1 : 1 ≤ n) (h2 : n ≤ min 6 (min f c)) :
    GovernorSound (choose n g) f c := by
  obtain ⟨a, b, d, e, i, j⟩ := h
  unfold choose
  split
  · exact ⟨a, b, d, e, i, j⟩
  · split
    · exact ⟨a, b, d, e, h1, h2⟩
    · exact ⟨a, b, d, e, i, j⟩

/-- An evaluation keeps the governor's ranges (R124 to R127). -/
theorem evaluateWith_sound {u c bytes t now f k : Nat} {g : Sgv} (h : GovernorSound g f k) (hk : 2 ≤ k) :
    GovernorSound (evaluateWith u c bytes t (min 6 (min f k)) now g) f k := by
  unfold evaluateWith
  have h' : GovernorSound { g with mark := now, crs := ratioStage g.crs u c, hs := rateStage g.hs bytes t } f k := by
    obtain ⟨a, b, d, e, i, j⟩ := h
    exact ⟨(ratioStage_range ⟨a, b⟩).1, (ratioStage_range ⟨a, b⟩).2, rateStage_le d, e, i, j⟩
  extract_lets x
  change GovernorSound x f k at h'
  clear_value x
  split
  · exact h'
  · rename_i hs hx
    have := (lowestStep_range (requiredRate hs x.crs)).1
    have h4 := h'.2.2.2.1
    exact choose_sound h' (by omega) (Nat.min_le_right _ _)

/-! ## Outcomes -/

theorem next_inj {a b : State} (h : (Host.Outcome.next a : Host.Outcome State Fault Refusal) = .next b) : a = b := by
  injection h

end Sys2Proof.Machine
end

