-- ==== Sys2Proof/Laws/KeepsWrite.lean ====
section
/-! SUPPORT. `Keeps` for the blocks that send, latch, move the tape, and write: Machine/Ops, Motion, Buffer, Writer and Engine. One lemma per definition. -/

namespace Sys2Proof.Machine

variable {P : Prop} {z s : State}

theorem emit_keeps {o : Output} (h : Keeps P z s) : Keeps P z (emit o s) :=
  { h with out := h.out.trans (List.prefix_append _ _) }

theorem latch_keeps {e : Event} (h : Keeps P z s) : Keeps P z (latch e s) :=
  { h with sound := fun p => { h.sound p with events := changeEvent_sound (fun _ => EventFlags.latch_sound) (h.sound p).events } }

theorem latchAll_keeps {es : List Event} (h : Keeps P z s) : Keeps P z (latchAll es s) := by
  unfold latchAll
  induction es generalizing s with
  | nil => exact h
  | cons e es ih => exact ih (latch_keeps h)

theorem linkError_keeps (hz : Keeps P z s) : Keeps P z (linkError s) := by
  unfold linkError
  extract_lets x0
  with_reducible apply latch_keeps
  with_reducible assumption

theorem sendNotices_keeps (h : Keeps P z s) : Keeps P z (sendNotices s) := by
  unfold sendNotices
  split
  · with_reducible apply emit_keeps
    exact { h with sound := fun p => { h.sound p with events := clearPending_sound (h.sound p).events } }
  · with_reducible assumption

theorem reply_keeps {tag : Tag} {r : Reply} (hz : Keeps P z s) : Keeps P z (reply tag r s) := by
  unfold reply
  split
  · with_reducible apply emit_keeps
    with_reducible assumption
  · with_reducible assumption

theorem dropTag_keeps {tag : Tag} (hz : Keeps P z s) : Keeps P z (dropTag tag s) := by
  unfold dropTag
  extract_lets x1
  with_reducible assumption

theorem answer_keeps {r : LibRecord} (hz : Keeps P z s) : Keeps P z (answer r s) := by
  unfold answer
  extract_lets x2
  with_reducible assumption

theorem answerGood_keeps (hz : Keeps P z s) : Keeps P z (answerGood s) := by
  unfold answerGood
  with_reducible apply answer_keeps
  with_reducible assumption

theorem answerWith_keeps {r : Reason} {info : Option Nat} (hz : Keeps P z s) : Keeps P z (answerWith r info s) := by
  unfold answerWith
  with_reducible apply answer_keeps
  with_reducible assumption

theorem grantCredits_keeps (h : Keeps P z s) : Keeps P z (grantCredits s) := by
  unfold grantCredits
  extract_lets n
  split
  · with_reducible apply emit_keeps
    refine { h with sound := fun p => { h.sound p with room := ?_ } }
    have := (h.sound p).room
    simp only [n, emptyBuffers]
    omega
  · exact h

theorem beginStoreWrite_keeps {w : StoreWrite} (hz : Keeps P z s) : Keeps P z (beginStoreWrite w s) := by
  unfold beginStoreWrite
  extract_lets x3
  with_reducible assumption

theorem copyRecord_keeps (hz : Keeps P z s) : Keeps P z (copyRecord s) := by
  unfold copyRecord
  with_reducible apply beginStoreWrite_keeps
  with_reducible assumption

theorem enterRecord_keeps {u : FaultUnit} {c : FaultCause} (h : Keeps P z s) : Keeps P z (enterRecord u c s) := by
  unfold enterRecord
  split
  · rename_i l hl
    have hs : P → (s.frg.current.getD []).length ≤ 4 := by
      intro p
      cases hc : s.frg.current with
      | none => simp
      | some r => exact (h.sound p).record r hc
    with_reducible apply copyRecord_keeps
    exact { h with sound := fun p => { h.sound p with record := fun r hr => by cases hr; exact enterFault_length (hs p) hl } }
  · with_reducible assumption

theorem reportFault_keeps {u : FaultUnit} {c : FaultCause} (hz : Keeps P z s) : Keeps P z (reportFault u c s) := by
  unfold reportFault
  extract_lets x4 x5
  have h4 : Keeps P z x4 := by
    unfold x4
    with_reducible apply enterRecord_keeps
    with_reducible assumption
  clear_value x4
  split
  · with_reducible apply latch_keeps
    with_reducible assumption
  · with_reducible apply latch_keeps
    with_reducible assumption

theorem storeRetained_keeps (hz : Keeps P z s) : Keeps P z (storeRetained s) := by
  unfold storeRetained
  with_reducible apply beginStoreWrite_keeps
  with_reducible assumption

theorem applyCap_keeps (h : Keeps P z s) : Keeps P z (applyCap s) := by
  unfold applyCap
  extract_lets cap
  split
  · refine { h with sound := fun p => { h.sound p with governor := ?_ } }
    obtain ⟨a, b, c, d, e, f⟩ := (h.sound p).governor
    have hk := (levelCap_range s.hcm.level).1
    rw [← (h.sound p).head.2.2.2] at hk
    exact ⟨a, b, c, d, cap_pos d hk, Nat.le_refl _⟩
  · exact h

theorem setConditionCap_keeps {n cap : Nat} {k : Hcm} (h : KeepsBut P k cap z s) (hh : P → HeadSound s.hcm n) :
    Keeps P z (setConditionCap n s) := by
  unfold setConditionCap applyCap
  extract_lets c
  have hn : P → 2 ≤ n := fun p => (hh p).2.2.2 ▸ (levelCap_range s.hcm.level).1
  split
  · refine { h with sound := fun p => { h.sound p with head := hh p, governor := ?_ } }
    obtain ⟨a, b, x, d, e, f⟩ := (h.sound p).governor
    have := hn p
    exact ⟨a, b, x, d, cap_pos d this, Nat.le_refl _⟩
  · rename_i hc
    refine { h with sound := fun p => { h.sound p with head := hh p, governor := ?_ } }
    obtain ⟨a, b, x, d, e, f⟩ := (h.sound p).governor
    exact ⟨a, b, x, d, e, Nat.le_of_not_lt hc⟩

theorem setFormatCap_keeps {n : Nat} (h : Keeps P z s) (hn : 4 ≤ n) : Keeps P z (setFormatCap n s) := by
  unfold setFormatCap applyCap
  extract_lets c
  split
  · refine { h with sound := fun p => { h.sound p with governor := ?_ } }
    obtain ⟨a, b, x, d, e, f⟩ := (h.sound p).governor
    have hk := (levelCap_range s.hcm.level).1
    rw [← (h.sound p).head.2.2.2] at hk
    exact ⟨a, b, x, hn, cap_pos hn hk, Nat.le_refl _⟩
  · rename_i hc
    refine { h with sound := fun p => { h.sound p with governor := ?_ } }
    obtain ⟨a, b, x, d, e, f⟩ := (h.sound p).governor
    exact ⟨a, b, x, hn, e, Nat.le_of_not_lt hc⟩

theorem riseTo_keeps {l : Level} {k : Hcm} {cap : Nat} (h : KeepsBut P k cap z s) (hci : P → s.hcm.hci ≤ 1000)
    (hl : l ≠ .normal) (hr : (levelOf s.hcm.hci s.hcm.motionSeconds).rank ≤ l.rank) : Keeps P z (riseTo l s) := by
  unfold riseTo
  extract_lets x0 x1 x2
  have h1 : Keeps P z x1 := setConditionCap_keeps (k := k) (cap := cap) h (fun p => ⟨hci p, hr, by simp [hl], rfl⟩)
  clear_value x1
  have h2 : Keeps P z x2 := latchAll_keeps h1
  clear_value x2
  split
  · exact reportFault_keeps h2
  · exact h2

theorem testLevel_keeps {k : Hcm} {cap : Nat} (h : KeepsBut P k cap z s) (hci : P → s.hcm.hci ≤ 1000)
    (hc : P → (s.hcm.cleaningCall = true ↔ s.hcm.level ≠ .normal) ∧ s.moc.conditionCap = levelCap s.hcm.level) :
    Keeps P z (testLevel s) := by
  unfold testLevel
  extract_lets x1
  split
  · rename_i hr
    refine riseTo_keeps h hci ?_ (Nat.le_refl _)
    intro hn
    rw [hn] at hr
    exact absurd hr (Nat.not_lt_zero _)
  · rename_i hr
    exact { h with sound := fun p => { h.sound p with head := ⟨hci p, Nat.le_of_not_lt hr, hc p⟩ } }

theorem headSample_keeps {n : Nat} (h : Keeps P z s) (hn : n ≤ 1000) : Keeps P z (headSample n s) := by
  unfold headSample
  exact testLevel_keeps (k := s.hcm) (cap := s.moc.conditionCap) h (fun p => hciAfter_le (h.sound p).head.1 hn)
    (fun p => (h.sound p).head.2.2)

theorem handSecond_keeps (h : Keeps P z s) : Keeps P z (handSecond s) := by
  have second : ∀ a b, Keeps P z (testLevel { s with moc.motionTime := a, hcm.motionSeconds := b }) := fun a b =>
    testLevel_keeps (k := s.hcm) (cap := s.moc.conditionCap) h (fun p => (h.sound p).head.1) (fun p => (h.sound p).head.2.2)
  exact second _ _

theorem evaluate_keeps {subtract u c : Nat} (h : Keeps P z s) : Keeps P z (evaluate subtract u c s) := by
  unfold evaluate
  refine { h with sound := fun p => { h.sound p with governor := ?_ } }
  refine evaluateWith_sound (h.sound p).governor ?_
  have hk := (levelCap_range s.hcm.level).1
  rwa [← (h.sound p).head.2.2.2] at hk

theorem setEarlyWarning_keeps (hz : Keeps P z s) : Keeps P z (setEarlyWarning s) := by
  unfold setEarlyWarning
  extract_lets x6 x7 x8
  have h8 : Keeps P z x8 := by
    unfold x8
    with_reducible assumption
  clear_value x8
  split
  · with_reducible apply latch_keeps
    with_reducible assumption
  · with_reducible assumption

theorem formatCommit_keeps {d : Slot} (hz : Keeps P z s) : Keeps P z (formatCommit d s) := by
  unfold formatCommit
  extract_lets x9 x10 x11
  with_reducible apply setEarlyWarning_keeps
  with_reducible assumption

theorem overwriteFromBot_keeps (hz : Keeps P z s) : Keeps P z (overwriteFromBot s) := by
  unfold overwriteFromBot
  extract_lets x12 x13
  with_reducible apply setEarlyWarning_keeps
  with_reducible assumption

theorem truncateMap_keeps {d : Nat} {first : Nat} {marks : Nat} {n : Nat} {unended : Bool} {place : Place} (hz : Keeps P z s) :
    Keeps P z (truncateMap d first marks n unended place s) := by
  unfold truncateMap
  extract_lets x14 x15
  with_reducible apply setEarlyWarning_keeps
  with_reducible assumption

theorem appendAtEod_keeps (hz : Keeps P z s) : Keeps P z (appendAtEod s) := by
  unfold appendAtEod
  extract_lets x14 x15
  with_reducible assumption

theorem discardNumbering_keeps (hz : Keeps P z s) : Keeps P z (discardNumbering s) := by
  unfold discardNumbering
  extract_lets x16
  with_reducible apply setEarlyWarning_keeps
  with_reducible assumption

theorem forgetDirectory_keeps (hz : Keeps P z s) : Keeps P z (forgetDirectory s) := by
  unfold forgetDirectory
  extract_lets x17
  with_reducible apply setEarlyWarning_keeps
  with_reducible assumption

theorem comeToRest_keeps (hz : Keeps P z s) : Keeps P z (comeToRest s) := by
  unfold comeToRest
  extract_lets x18
  with_reducible assumption

theorem enterPhase_keeps {op : Operation} (hz : Keeps P z s) : Keeps P z (enterPhase op s) := by
  unfold enterPhase
  extract_lets x19
  split
  · with_reducible assumption
  · with_reducible assumption
  · with_reducible assumption
  · with_reducible assumption
  · with_reducible assumption
  · with_reducible assumption
  · with_reducible assumption
  · with_reducible assumption

theorem advance_keeps (h : Keeps P z s) : Keeps P z (advance s).1 := by
  unfold advance
  split
  · exact h
  · split
    · with_reducible apply enterPhase_keeps
      with_reducible assumption
    · extract_lets x1
      split
      · with_reducible apply comeToRest_keeps
        exact h
      · exact h

theorem beginRequest_keeps {r : MotionReq} (hz : Keeps P z s) : Keeps P z (beginRequest r s) := by
  unfold beginRequest
  extract_lets x1
  with_reducible apply enterPhase_keeps
  with_reducible assumption

theorem request_keeps {r : MotionReq} (hz : Keeps P z s) : Keeps P z (request r s) := by
  unfold request
  extract_lets x1
  split
  · with_reducible assumption
  · split
    · with_reducible apply beginRequest_keeps
      with_reducible assumption
    · split
      · with_reducible assumption
      · with_reducible assumption

theorem startStream_keeps {w : Work} {p : Place} {step : Option Nat} (hz : Keeps P z s) : Keeps P z (startStream w p step s) := by
  unfold startStream
  with_reducible apply request_keeps
  with_reducible assumption

theorem startSeek_keeps {w : Work} {p : Place} (hz : Keeps P z s) : Keeps P z (startSeek w p s) := by
  unfold startSeek
  with_reducible apply request_keeps
  with_reducible assumption

theorem startBackhitch_keeps {w : Work} {p : Place} (hz : Keeps P z s) : Keeps P z (startBackhitch w p s) := by
  unfold startBackhitch
  with_reducible apply request_keeps
  with_reducible assumption

theorem beginWaiting_keeps (hz : Keeps P z s) : Keeps P z (beginWaiting s) := by
  unfold beginWaiting
  extract_lets x1
  split
  · split
    · with_reducible apply beginRequest_keeps
      with_reducible assumption
    · with_reducible assumption
  · with_reducible assumption

theorem stopTape_keeps (hz : Keeps P z s) : Keeps P z (stopTape s) := by
  unfold stopTape
  extract_lets x1 x2 x3
  have h2 : Keeps P z x2 := by
    unfold x2
    with_reducible assumption
  clear_value x2
  split
  · split
    · with_reducible apply enterPhase_keeps
      with_reducible assumption
    · with_reducible assumption
  · split
    · with_reducible assumption
    · with_reducible assumption
    · with_reducible assumption
    · with_reducible assumption
    · with_reducible assumption
    · with_reducible apply enterPhase_keeps
      with_reducible assumption

theorem stopForAbort_keeps (hz : Keeps P z s) : Keeps P z (stopForAbort s) := by
  unfold stopForAbort
  split
  · split
    · with_reducible apply stopTape_keeps
      with_reducible assumption
    · with_reducible apply enterPhase_keeps
      with_reducible assumption
  · with_reducible apply stopTape_keeps
    with_reducible assumption

theorem stopWriting_keeps (hz : Keeps P z s) : Keeps P z (stopWriting s) := by
  unfold stopWriting
  extract_lets x1 x2 x3 x4 x5
  have h3 : Keeps P z x3 := by
    unfold x3
    with_reducible apply stopTape_keeps
    with_reducible assumption
  clear_value x3
  split
  · with_reducible assumption
  · with_reducible assumption

theorem turnTo_keeps {w : Work} {p : Place} {step : Option Nat} (hz : Keeps P z s) : Keeps P z (turnTo w p step s) := by
  unfold turnTo
  with_reducible apply enterPhase_keeps
  with_reducible assumption

theorem speedChange_keeps {w : Work} {p : Place} (hz : Keeps P z s) : Keeps P z (speedChange w p s) := by
  unfold speedChange
  extract_lets x1
  with_reducible apply enterPhase_keeps
  with_reducible assumption

theorem reacquire_keeps (hz : Keeps P z s) : Keeps P z (reacquire s) := by
  unfold reacquire
  extract_lets x1
  split
  · with_reducible apply enterPhase_keeps
    with_reducible assumption

theorem haltTape_keeps (hz : Keeps P z s) : Keeps P z (haltTape s) := by
  unfold haltTape
  extract_lets x1
  with_reducible assumption

theorem atBot_keeps (hz : Keeps P z s) : Keeps P z (atBot s) := by
  unfold atBot
  extract_lets x1
  with_reducible assumption

theorem finishHead_keeps {r : Reply} (h : Keeps P z s) : Keeps P z (finishHead r s) := by
  unfold finishHead
  split
  · exact h
  · rename_i q rest hq
    have hl : P → rest.length ≤ 16 := by
      intro p
      have := (h.sound p).queue
      rw [hq] at this
      exact Nat.le_of_succ_le this
    extract_lets x1 x2 x3 x4
    have h2 : Keeps P z x2 := by
      unfold x2
      split
      · with_reducible apply latch_keeps
        with_reducible assumption
      · split
        · with_reducible assumption
        · with_reducible apply reply_keeps
          with_reducible assumption
    clear_value x2
    have h4 : Keeps P z x4 := { h2 with sound := fun p => { h2.sound p with queue := hl p } }
    clear_value x4
    split
    · with_reducible assumption
    · with_reducible apply dropTag_keeps
      with_reducible assumption

theorem answerEarly_keeps (hz : Keeps P z s) : Keeps P z (answerEarly s) := by
  unfold answerEarly
  split
  · with_reducible assumption
  · extract_lets x1 x2 x3
    have h1 : Keeps P z x1 := by
      unfold x1
      split
      · with_reducible assumption
      · with_reducible apply reply_keeps
        with_reducible assumption
    clear_value x1
    with_reducible assumption

theorem endHead_keeps {o : OutcomeBlock} (hz : Keeps P z s) : Keeps P z (endHead o s) := by
  unfold endHead
  split
  · with_reducible assumption
  · with_reducible apply finishHead_keeps
    with_reducible assumption

theorem setPhase_keeps {p : HeadPhase} (hz : Keeps P z s) : Keeps P z (setPhase p s) := by
  unfold setPhase
  extract_lets x1 x2
  with_reducible assumption

theorem changeFilling_keeps {f : Slot → Slot} (hz : Keeps P z s) : Keeps P z (changeFilling f s) := by
  unfold changeFilling
  extract_lets x1
  with_reducible assumption

theorem changeWrite_keeps {dsn : Nat} {f : Slot → Slot} (hz : Keeps P z s) : Keeps P z (changeWrite dsn f s) := by
  unfold changeWrite
  extract_lets x1
  with_reducible assumption

theorem changeRead_keeps {dsn : Nat} {f : Slot → Slot} (hz : Keeps P z s) : Keeps P z (changeRead dsn f s) := by
  unfold changeRead
  extract_lets x1
  with_reducible assumption

theorem settleDirection_keeps (hz : Keeps P z s) : Keeps P z (settleDirection s) := by
  unfold settleDirection
  extract_lets x1
  split
  · split
    · with_reducible assumption
    · with_reducible assumption
  · split
    · with_reducible assumption
    · with_reducible assumption
  · with_reducible assumption

theorem stopUnpacking_keeps (hz : Keeps P z s) : Keeps P z (stopUnpacking s) := by
  unfold stopUnpacking
  extract_lets x1
  split
  · with_reducible assumption
  · with_reducible assumption

theorem stopCollecting_keeps (hz : Keeps P z s) : Keeps P z (stopCollecting s) := by
  unfold stopCollecting
  extract_lets x1
  with_reducible assumption

theorem dropPositionSearch_keeps (hz : Keeps P z s) : Keeps P z (dropPositionSearch s) := by
  unfold dropPositionSearch
  split
  · with_reducible assumption
  · with_reducible assumption

theorem dropReadSide_keeps {count : Bool} (hz : Keeps P z s) : Keeps P z (dropReadSide count s) := by
  unfold dropReadSide
  have h1 : Keeps P z (dropPositionSearch s) := dropPositionSearch_keeps hz
  extract_lets x1 x2
  with_reducible apply settleDirection_keeps
  with_reducible apply stopCollecting_keeps
  with_reducible apply stopUnpacking_keeps
  with_reducible assumption

theorem freeReadSlot_keeps {dsn : Nat} (hz : Keeps P z s) : Keeps P z (freeReadSlot dsn s) := by
  unfold freeReadSlot
  extract_lets x1 x2
  have h1 : Keeps P z x1 := by
    unfold x1
    split
    · with_reducible apply stopUnpacking_keeps
      with_reducible assumption
    · with_reducible assumption
  clear_value x1
  with_reducible apply settleDirection_keeps
  with_reducible assumption

theorem startDraining_keeps {dsn : Nat} (hz : Keeps P z s) : Keeps P z (startDraining dsn s) := by
  unfold startDraining
  extract_lets x1 x2
  have h1 : Keeps P z x1 := by
    unfold x1
    with_reducible apply changeRead_keeps
    with_reducible assumption
  clear_value x1
  with_reducible assumption

theorem consumeStaged_keeps {n : Nat} (h : Keeps P z s) : Keeps P z (consumeStaged n s) := by
  unfold consumeStaged
  with_reducible apply grantCredits_keeps
  exact { h with sound := fun p => { h.sound p with
    room := Nat.le_trans (Nat.add_le_add_left (takeStaged_length n _) _) (h.sound p).room } }

theorem dropCollecting_keeps (hz : Keeps P z s) : Keeps P z (dropCollecting s) := by
  unfold dropCollecting
  extract_lets x1 x2
  have h1 : Keeps P z x1 := stopCollecting_keeps hz
  clear_value x1
  with_reducible apply settleDirection_keeps
  with_reducible assumption

theorem dropReading_keeps (hz : Keeps P z s) : Keeps P z (dropReading s) := by
  unfold dropReading
  extract_lets x1
  with_reducible apply dropCollecting_keeps
  with_reducible assumption

theorem endSearches_keeps (hz : Keeps P z s) : Keeps P z (endSearches s) := by
  unfold endSearches
  extract_lets x1
  with_reducible assumption

theorem dropEmptyOpen_keeps (hz : Keeps P z s) : Keeps P z (dropEmptyOpen s) := by
  unfold dropEmptyOpen
  split
  · split
    · with_reducible assumption
    · with_reducible assumption
  · with_reducible assumption

theorem dropRecords_keeps {tag : Tag} (hz : Keeps P z s) : Keeps P z (dropRecords tag s) := by
  unfold dropRecords
  split
  · extract_lets x1
    split
    · with_reducible apply dropEmptyOpen_keeps
      with_reducible assumption
    · with_reducible assumption
  · with_reducible assumption

theorem dropUnplaced_keeps {tag : Tag} (hz : Keeps P z s) : Keeps P z (dropUnplaced tag s) := by
  unfold dropUnplaced
  extract_lets x1
  with_reducible apply dropRecords_keeps
  with_reducible assumption

theorem dropLinkOperation_keeps (hz : Keeps P z s) : Keeps P z (dropLinkOperation s) := by
  unfold dropLinkOperation
  extract_lets x1
  split
  · split
    · with_reducible assumption
    · with_reducible assumption
  · with_reducible assumption

theorem dropWaitingOperation_keeps (hz : Keeps P z s) : Keeps P z (dropWaitingOperation s) := by
  unfold dropWaitingOperation
  extract_lets x1
  split
  · split
    · with_reducible assumption
    · with_reducible assumption
  · with_reducible assumption

theorem pendReport_keeps {r : Report} (hz : Keeps P z s) : Keeps P z (pendReport r s) := by
  unfold pendReport
  extract_lets x1 x2
  have h1 : Keeps P z x1 := by
    unfold x1
    with_reducible apply dropWaitingOperation_keeps
    with_reducible assumption
  clear_value x1
  split
  · with_reducible assumption
  · with_reducible assumption

theorem reportFailure_keeps {r : Report} (hz : Keeps P z s) : Keeps P z (reportFailure r s) := by
  have hd : Keeps P z (endHead (.sense (reportSense r (0 < r.held))) (dropReading (endSearches (dropUnplaced (headTag s) s)))) :=
    endHead_keeps (dropReading_keeps (endSearches_keeps (dropUnplaced_keeps hz)))
  have hp : Keeps P z (pendReport r s) := pendReport_keeps hz
  unfold reportFailure
  split
  · exact hp
  · split
    iterate 4
      · split
        · exact hd
        · exact hp
    iterate 4
      · with_reducible apply endHead_keeps
        with_reducible apply dropUnplaced_keeps
        with_reducible assumption
    · with_reducible apply endHead_keeps
      with_reducible assumption
    · split
      · exact hp
      · with_reducible apply endHead_keeps
        with_reducible apply dropLinkOperation_keeps
        with_reducible assumption
    · exact hp

theorem startWriter_keeps (hz : Keeps P z s) : Keeps P z (startWriter s) := by
  unfold startWriter
  extract_lets x1 x2
  split
  · with_reducible assumption
  · with_reducible assumption

theorem askWriter_keeps (hz : Keeps P z s) : Keeps P z (askWriter s) := by
  unfold askWriter
  extract_lets x1 x2 x3
  split
  · with_reducible apply startStream_keeps
    with_reducible assumption
  · with_reducible assumption

theorem reportFirstFrame_keeps (hz : Keeps P z s) : Keeps P z (reportFirstFrame s) := by
  unfold reportFirstFrame
  extract_lets x1 x2
  split
  · with_reducible assumption
  · with_reducible assumption

theorem issue_keeps {kind : WinKind} {dsn index : Option Nat} {attempt : Nat} {f : TapeFrame} (h : Keeps P z s) :
    Keeps P z (issue kind dsn index attempt f s) := by
  unfold issue
  extract_lets
  with_reducible apply reportFirstFrame_keeps
  with_reducible apply emit_keeps
  exact { h with sound := fun p => { h.sound p with tag := Nat.mod_lt _ (by decide) } }

theorem issueAbandon_keeps {dsn : Nat} {attempt : Nat} (hz : Keeps P z s) : Keeps P z (issueAbandon dsn attempt s) := by
  unfold issueAbandon
  extract_lets x1 x2 x3
  have h2 : Keeps P z x2 := by
    unfold x2
    with_reducible apply changeWrite_keeps
    with_reducible assumption
  clear_value x2
  with_reducible apply issue_keeps
  with_reducible assumption

theorem issueRewrite_keeps {e : RewriteEntry} (hz : Keeps P z s) : Keeps P z (issueRewrite e s) := by
  unfold issueRewrite
  extract_lets x1 x2 x3 x4
  have h3 : Keeps P z x3 := by
    unfold x3
    with_reducible apply changeWrite_keeps
    with_reducible assumption
  clear_value x3
  split
  · with_reducible assumption
  · with_reducible apply issue_keeps
    with_reducible assumption

theorem issueNew_keeps {d : Slot} (hz : Keeps P z s) : Keeps P z (issueNew d s) := by
  unfold issueNew
  extract_lets x1 x2 x3 x4 x5
  have h4 : Keeps P z x4 := by
    unfold x4
    with_reducible apply changeWrite_keeps
    with_reducible assumption
  clear_value x4
  with_reducible apply issue_keeps
  with_reducible assumption

theorem issueEod_keeps {attempt : Nat} (hz : Keeps P z s) : Keeps P z (issueEod attempt s) := by
  unfold issueEod
  extract_lets x1 x2
  have h1 : Keeps P z x1 := by
    unfold x1
    with_reducible apply issue_keeps
    with_reducible assumption
  clear_value x1
  with_reducible assumption

theorem passBlank_keeps (hz : Keeps P z s) : Keeps P z (passBlank s) := by
  unfold passBlank
  extract_lets x1 x2
  with_reducible assumption

theorem voidEntries_keeps {gone : WinEntry → Bool} (hz : Keeps P z s) : Keeps P z (voidEntries gone s) := by
  unfold voidEntries
  extract_lets x1
  with_reducible assumption

theorem planEod_keeps {c : EodCause} (hz : Keeps P z s) : Keeps P z (planEod c s) := by
  unfold planEod
  extract_lets x1 x2 x3
  with_reducible assumption

theorem finishEod_keeps {c : EodCause} (hz : Keeps P z s) : Keeps P z (finishEod c s) := by
  unfold finishEod
  extract_lets x1 x2 x3 x4
  have h2 : Keeps P z x2 := by
    unfold x2
    with_reducible assumption
  clear_value x2
  have h4 : Keeps P z x4 := by
    unfold x4
    with_reducible assumption
  clear_value x4
  split
  · with_reducible apply stopWriting_keeps
    with_reducible assumption
  · with_reducible apply stopWriting_keeps
    with_reducible assumption
  · split
    · with_reducible apply startWriter_keeps
      with_reducible assumption
    · split
      · with_reducible apply stopWriting_keeps
        with_reducible assumption
      · with_reducible apply startBackhitch_keeps
        with_reducible assumption
  · split
    · with_reducible apply startWriter_keeps
      with_reducible assumption
    · split
      · with_reducible apply stopWriting_keeps
        with_reducible assumption
      · with_reducible apply startBackhitch_keeps
        with_reducible assumption

theorem toEod_keeps {c : EodCause} (hz : Keeps P z s) : Keeps P z (toEod c s) := by
  unfold toEod
  split
  · with_reducible apply planEod_keeps
    with_reducible assumption
  · with_reducible apply finishEod_keeps
    with_reducible assumption

theorem endFlush_keeps (hz : Keeps P z s) : Keeps P z (endFlush s) := by
  unfold endFlush
  extract_lets x1 x2
  with_reducible assumption

theorem permanentFailure_keeps {kind : ReportKind} {dsn : Option Nat} {ofEod : Bool} (hz : Keeps P z s) : Keeps P z (permanentFailure kind dsn ofEod s) := by
  unfold permanentFailure
  extract_lets x1 x2 x3 x4 x5 x6
  have h1 : Keeps P z x1 := by
    unfold x1
    with_reducible apply voidEntries_keeps
    with_reducible assumption
  have h4 : Keeps P z x4 := by
    unfold x4
    with_reducible assumption
  have h5 : Keeps P z x5 := by
    unfold x5
    split
    · with_reducible apply finishEod_keeps
      with_reducible assumption
    · with_reducible apply toEod_keeps
      with_reducible assumption
  clear_value x5
  have h6 : Keeps P z x6 := by
    unfold x6
    with_reducible apply endFlush_keeps
    with_reducible apply latch_keeps
    with_reducible assumption
  clear_value x6
  with_reducible apply reportFailure_keeps
  with_reducible assumption

theorem failDataSet_keeps {dsn : Nat} (hz : Keeps P z s) : Keeps P z (failDataSet dsn s) := by
  unfold failDataSet
  extract_lets x1 x2 x3
  have h1 : Keeps P z x1 := by
    unfold x1
    with_reducible apply voidEntries_keeps
    with_reducible assumption
  clear_value x1
  have h2 : Keeps P z x2 := by
    unfold x2
    with_reducible apply changeWrite_keeps
    with_reducible assumption
  clear_value x2
  split
  · with_reducible assumption
  · split
    · with_reducible apply permanentFailure_keeps
      with_reducible assumption
    · with_reducible assumption

theorem commitSlot_keeps {d : Slot} (hz : Keeps P z s) : Keeps P z (commitSlot d s) := by
  unfold commitSlot
  extract_lets x1 x2 x3 x4 x5 x6
  have h1 : Keeps P z x1 := by
    unfold x1
    with_reducible apply formatCommit_keeps
    with_reducible assumption
  clear_value x1
  have h4 : Keeps P z x4 := by
    unfold x4
    with_reducible apply headSample_keeps
    · with_reducible assumption
    · exact sampleOf_le _
  clear_value x4
  with_reducible assumption

theorem commitFrom_keeps {n : Nat} (h : Keeps P z s) : Keeps P z (commitFrom n s) := by
  induction n generalizing s with
  | zero => exact h
  | succ n commitFrom_keeps =>
    unfold commitFrom
    split
    · split
      · with_reducible apply commitFrom_keeps
        with_reducible apply commitSlot_keeps
        with_reducible assumption
      · with_reducible assumption
    · with_reducible assumption

theorem commitChain_keeps (hz : Keeps P z s) : Keeps P z (commitChain s) := by
  unfold commitChain
  with_reducible apply commitFrom_keeps
  with_reducible assumption

theorem writerIdle_keeps (hz : Keeps P z s) : Keeps P z (writerIdle s) := by
  unfold writerIdle
  split
  · with_reducible apply toEod_keeps
    with_reducible assumption
  · with_reducible assumption

theorem cutUnsettled_keeps (hz : Keeps P z s) : Keeps P z (cutUnsettled s) := by
  unfold cutUnsettled
  extract_lets x1 x2 x3
  have h1 : Keeps P z x1 := by
    unfold x1
    with_reducible apply voidEntries_keeps
    with_reducible assumption
  clear_value x1
  with_reducible assumption

theorem endOfMedium_keeps (hz : Keeps P z s) : Keeps P z (endOfMedium s) := by
  unfold endOfMedium
  extract_lets x1 x2 x3 x4
  have h1 : Keeps P z x1 := by
    unfold x1
    with_reducible apply voidEntries_keeps
    with_reducible assumption
  clear_value x1
  have h3 : Keeps P z x3 := by
    unfold x3
    with_reducible assumption
  clear_value x3
  have h4 : Keeps P z x4 := by
    unfold x4
    with_reducible apply endFlush_keeps
    with_reducible apply toEod_keeps
    with_reducible assumption
  clear_value x4
  with_reducible apply reportFailure_keeps
  with_reducible assumption

theorem endWrap_keeps (hz : Keeps P z s) : Keeps P z (endWrap s) := by
  unfold endWrap
  extract_lets x1 x2 x3 x4
  have h1 : Keeps P z x1 := by
    unfold x1
    with_reducible apply cutUnsettled_keeps
    with_reducible assumption
  clear_value x1
  split
  · with_reducible apply endOfMedium_keeps
    with_reducible assumption
  · with_reducible apply turnTo_keeps
    with_reducible assumption

theorem checkWrap_keeps (hz : Keeps P z s) : Keeps P z (checkWrap s) := by
  unfold checkWrap
  extract_lets x1 x2
  have h2 : Keeps P z x2 := by
    unfold x2
    split
    · with_reducible assumption
    · with_reducible assumption
  clear_value x2
  split
  · with_reducible assumption
  · split
    · with_reducible apply endWrap_keeps
      with_reducible assumption
    · with_reducible assumption

theorem eodBad_keeps {e : WinEntry} (hz : Keeps P z s) : Keeps P z (eodBad e s) := by
  unfold eodBad
  extract_lets x1 x2
  split
  · with_reducible assumption
  · split
    · with_reducible apply finishEod_keeps
      with_reducible assumption
    · with_reducible apply permanentFailure_keeps
      with_reducible assumption

theorem dataBad_keeps {e : WinEntry} (hz : Keeps P z s) : Keeps P z (dataBad e s) := by
  unfold dataBad
  extract_lets x1 x2
  split
  · with_reducible assumption
  · with_reducible apply failDataSet_keeps
    with_reducible assumption

theorem dataGood_keeps {e : WinEntry} (hz : Keeps P z s) : Keeps P z (dataGood e s) := by
  unfold dataGood
  extract_lets x1
  with_reducible apply commitChain_keeps
  with_reducible apply changeWrite_keeps
  with_reducible assumption

theorem matchVerdict_keeps {e : WinEntry} {good : Bool} (hz : Keeps P z s) : Keeps P z (matchVerdict e good s) := by
  unfold matchVerdict
  extract_lets x1
  split
  · with_reducible apply dataGood_keeps
    with_reducible assumption
  · with_reducible apply dataBad_keeps
    with_reducible assumption
  · with_reducible apply changeWrite_keeps
    with_reducible assumption
  · split
    · with_reducible assumption
    · with_reducible apply permanentFailure_keeps
      with_reducible assumption
  · with_reducible apply finishEod_keeps
    with_reducible assumption
  · with_reducible apply eodBad_keeps
    with_reducible assumption

theorem takeVerdict_keeps {tag : Nat} {good : Bool} (hz : Keeps P z s) : Keeps P z (takeVerdict tag good s) := by
  unfold takeVerdict
  extract_lets x1
  split
  · with_reducible assumption
  · split
    · with_reducible assumption
    · with_reducible apply matchVerdict_keeps
      with_reducible assumption

theorem missingVerdicts_keeps (h : Keeps P z s) : Keeps P z (missingVerdicts s) := by
  have verdicts : ∀ (l : List Nat) (x : State), Keeps P z x → Keeps P z (l.foldl (fun acc t => takeVerdict t false acc) x) := by
    intro l
    induction l with
    | nil => exact fun _ h => h
    | cons t l ih => exact fun x hx => ih _ (takeVerdict_keeps hx)
  unfold missingVerdicts
  exact verdicts _ _ (verdicts _ _ h)

theorem settleDuty_keeps (hz : Keeps P z s) : Keeps P z (settleDuty s) := by
  unfold settleDuty
  extract_lets x1
  split
  · with_reducible assumption
  · with_reducible assumption

theorem writerFault_keeps (hz : Keeps P z s) : Keeps P z (writerFault s) := by
  unfold writerFault
  extract_lets x1 x2
  with_reducible assumption

theorem discardChannel_keeps (hz : Keeps P z s) : Keeps P z (discardChannel s) := by
  unfold discardChannel
  extract_lets x1 x2
  have h1 : Keeps P z x1 := by
    unfold x1
    with_reducible apply voidEntries_keeps
    with_reducible assumption
  clear_value x1
  with_reducible assumption

theorem beginDataSet_keeps {d : Slot} (hz : Keeps P z s) : Keeps P z (beginDataSet d s) := by
  unfold beginDataSet
  extract_lets x1 x2
  have h2 : Keeps P z x2 := by
    unfold x2
    with_reducible apply checkWrap_keeps
    with_reducible assumption
  clear_value x2
  split
  · with_reducible apply passBlank_keeps
    with_reducible assumption
  · split
    · split
      · with_reducible assumption
      · split
        · with_reducible apply issueNew_keeps
          with_reducible assumption
        · with_reducible apply passBlank_keeps
          with_reducible assumption
    · split
      · with_reducible apply speedChange_keeps
        with_reducible assumption
      · with_reducible apply issueNew_keeps
        with_reducible assumption

theorem frameStep_keeps (hz : Keeps P z s) : Keeps P z (frameStep s) := by
  unfold frameStep
  extract_lets x1
  split
  · split
    · with_reducible apply issueEod_keeps
      with_reducible assumption
    · with_reducible assumption
  · split
    · with_reducible assumption
    · split
      · with_reducible apply checkWrap_keeps
        with_reducible assumption
      · split
        · with_reducible apply passBlank_keeps
          with_reducible assumption
        · split
          · with_reducible apply issueAbandon_keeps
            with_reducible assumption
          · with_reducible apply issueRewrite_keeps
            with_reducible assumption
          · split
            · with_reducible apply beginDataSet_keeps
              with_reducible assumption
            · with_reducible apply issueNew_keeps
              with_reducible assumption
          · with_reducible apply passBlank_keeps
            with_reducible assumption

theorem openDataSet_keeps (hz : Keeps P z s) : Keeps P z (openDataSet s) := by
  unfold openDataSet
  extract_lets x1 x2 x3
  split
  · with_reducible assumption
  · with_reducible assumption

theorem closeDataSet_keeps (hz : Keeps P z s) : Keeps P z (closeDataSet s) := by
  unfold closeDataSet
  split
  · with_reducible assumption
  · split
    · with_reducible assumption
    · with_reducible apply evaluate_keeps
      with_reducible apply changeFilling_keeps
      with_reducible assumption

theorem dropIntake_keeps (hz : Keeps P z s) : Keeps P z (dropIntake s) := by
  unfold dropIntake
  extract_lets x1
  split
  · with_reducible assumption
  · with_reducible assumption

theorem addEntry_keeps {e : Entry} {syms : List PSym} {bytes : List Byte} (hz : Keeps P z s) : Keeps P z (addEntry e syms bytes s) := by
  unfold addEntry
  extract_lets x1 x2
  have h1 : Keeps P z x1 := by
    unfold x1
    with_reducible apply changeFilling_keeps
    with_reducible assumption
  clear_value x1
  with_reducible assumption

theorem placeFilemark_keeps (hz : Keeps P z s) : Keeps P z (placeFilemark s) := by
  unfold placeFilemark
  extract_lets x1 x2 x3 x4 x5
  have h1 : Keeps P z x1 := by
    unfold x1
    with_reducible apply dropIntake_keeps
    with_reducible apply addEntry_keeps
    with_reducible assumption
  clear_value x1
  have h5 : Keeps P z x5 := by
    unfold x5
    with_reducible assumption
  clear_value x5
  split
  · with_reducible apply closeDataSet_keeps
    with_reducible assumption
  · with_reducible assumption

theorem drainFrom_keeps {n : Nat} (h : Keeps P z s) : Keeps P z (drainFrom n s) := by
  induction n generalizing s with
  | zero => exact h
  | succ n drainFrom_keeps =>
    unfold drainFrom
    extract_lets x1 x2 x3 x4 x5
    have h1 : Keeps P z x1 := by
      unfold x1
      with_reducible apply openDataSet_keeps
      with_reducible assumption
    clear_value x1
    have h2 : Keeps P z x2 := by
      unfold x2
      with_reducible apply closeDataSet_keeps
      with_reducible assumption
    clear_value x2
    have h4 : Keeps P z x4 := by
      unfold x4
      with_reducible apply closeDataSet_keeps
      with_reducible assumption
    clear_value x4
    split
    · split
      · split
        · with_reducible assumption
        · with_reducible assumption
      · with_reducible apply drainFrom_keeps
        with_reducible assumption
    · split
      · with_reducible apply drainFrom_keeps
        with_reducible apply placeFilemark_keeps
        with_reducible assumption
      · split
        · with_reducible assumption
        · with_reducible apply drainFrom_keeps
          with_reducible apply placeFilemark_keeps
          with_reducible assumption
    · with_reducible assumption

theorem settleEngine_keeps (hz : Keeps P z s) : Keeps P z (settleEngine s) := by
  unfold settleEngine
  extract_lets x1 x2 x3 x4
  have h2 : Keeps P z x2 := by
    unfold x2
    split
    · split
      · with_reducible apply openDataSet_keeps
        with_reducible assumption
      · with_reducible assumption
    · with_reducible assumption
  clear_value x2
  have h3 : Keeps P z x3 := by
    unfold x3
    with_reducible apply drainFrom_keeps
    with_reducible assumption
  clear_value x3
  split
  · with_reducible assumption
  · split
    · with_reducible assumption
    · split
      · with_reducible assumption
      · with_reducible assumption

theorem demandFlush_keeps (hz : Keeps P z s) : Keeps P z (demandFlush s) := by
  unfold demandFlush
  extract_lets x1 x2
  split
  · with_reducible apply settleEngine_keeps
    with_reducible assumption
  · with_reducible apply settleEngine_keeps
    with_reducible assumption

theorem compressionFault_keeps (hz : Keeps P z s) : Keeps P z (compressionFault s) := by
  unfold compressionFault
  extract_lets x1 x2 x3 x4
  have h3 : Keeps P z x3 := by
    unfold x3
    with_reducible assumption
  clear_value x3
  split
  · with_reducible apply reportFault_keeps
    with_reducible assumption
  · with_reducible assumption

theorem placePart_keeps {kind : PartKind} {bytes : List Byte} {syms : List PSym} {tag : Tag} {length : Nat} {placed : Nat} {received : Nat} {object : Option Nat} {accepted : Bool} (hz : Keeps P z s) : Keeps P z (placePart kind bytes syms tag length placed received object accepted s) := by
  unfold placePart
  extract_lets x1 x2 x3 x4 x5 x6 x7 x8 x9 x10 x11 x12 x13
  have h5 : Keeps P z x5 := by
    unfold x5
    with_reducible apply addEntry_keeps
    with_reducible assumption
  clear_value x5
  have h8 : Keeps P z x8 := by
    unfold x8
    with_reducible assumption
  clear_value x8
  have h9 : Keeps P z x9 := by
    unfold x9
    with_reducible apply consumeStaged_keeps
    with_reducible assumption
  clear_value x9
  have h12 : Keeps P z x12 := by
    unfold x12
    with_reducible apply dropIntake_keeps
    with_reducible assumption
  clear_value x12
  split
  · split
    · with_reducible apply closeDataSet_keeps
      with_reducible assumption
    · with_reducible assumption
  · with_reducible apply closeDataSet_keeps
    with_reducible assumption

theorem takeBytes_keeps {avail : List Byte} {tag : Tag} {length : Nat} {received : Nat} {placed : Nat} {object : Option Nat} {accepted : Bool} (hz : Keeps P z s) : Keeps P z (takeBytes avail tag length received placed object accepted s) := by
  unfold takeBytes
  extract_lets x1 x2 x3
  with_reducible apply consumeStaged_keeps
  with_reducible assumption

theorem formRecord_keeps {agrees : Bool} {tag : Tag} {length : Nat} {received : Nat} {placed : Nat} {object : Option Nat} {accepted : Bool} (hz : Keeps P z s) : Keeps P z (formRecord agrees tag length received placed object accepted s) := by
  unfold formRecord
  extract_lets x1
  split
  · split
    · with_reducible assumption
    · with_reducible apply takeBytes_keeps
      with_reducible assumption
  · extract_lets x2
    have h2 : Keeps P z x2 := by
      unfold x2
      split
      · with_reducible apply compressionFault_keeps
        with_reducible assumption
      · with_reducible assumption
    clear_value x2
    with_reducible apply placePart_keeps
    with_reducible assumption

theorem passOver_keeps {received : Nat} {placed : Nat} (hz : Keeps P z s) : Keeps P z (passOver received placed s) := by
  unfold passOver
  with_reducible apply dropIntake_keeps
  with_reducible apply consumeStaged_keeps
  with_reducible assumption

theorem openForPart_keeps (hz : Keeps P z s) : Keeps P z (openForPart s) := by
  unfold openForPart
  extract_lets x1
  have h1 : Keeps P z x1 := by
    unfold x1
    split
    · with_reducible apply closeDataSet_keeps
      with_reducible assumption
    · with_reducible assumption
  clear_value x1
  split
  · with_reducible apply openDataSet_keeps
    with_reducible assumption
  · with_reducible assumption

theorem packStep_keeps {agrees : Bool} (hz : Keeps P z s) : Keeps P z (packStep agrees s) := by
  unfold packStep
  extract_lets x1
  have h1 : Keeps P z x1 := by
    unfold x1
    with_reducible apply openForPart_keeps
    with_reducible apply openForPart_keeps
    with_reducible assumption
  clear_value x1
  split
  · with_reducible assumption
  · split
    · split
      · with_reducible apply passOver_keeps
        with_reducible assumption
      · split
        · with_reducible assumption
        · split
          · with_reducible assumption
          · with_reducible apply formRecord_keeps
            with_reducible assumption
    · split
      · with_reducible apply openDataSet_keeps
        with_reducible assumption
      · with_reducible assumption

theorem dropPartial_keeps {tag : Tag} (hz : Keeps P z s) : Keeps P z (dropPartial tag s) := by
  unfold dropPartial
  with_reducible apply settleEngine_keeps
  with_reducible apply dropRecords_keeps
  with_reducible assumption

theorem discardEngine_keeps (hz : Keeps P z s) : Keeps P z (discardEngine s) := by
  unfold discardEngine
  extract_lets x1 x2
  with_reducible assumption

theorem discardWriteSide_keeps (h : Keeps P z s) : Keeps P z (discardWriteSide s) := by
  unfold discardWriteSide
  extract_lets x1 x2 x3 x4 x5 x6 x7 x8
  have h2 : Keeps P z x2 := by
    unfold x2
    with_reducible apply discardEngine_keeps
    with_reducible assumption
  clear_value x2
  have h5 : Keeps P z x5 := by
    unfold x5
    with_reducible apply grantCredits_keeps
    exact { h2 with sound := fun p => { h2.sound p with room := Nat.le_trans (by simp) (h2.sound p).room } }
  clear_value x5
  have h6 : Keeps P z x6 := by
    unfold x6
    with_reducible apply discardChannel_keeps
    with_reducible assumption
  clear_value x6
  have h7 : Keeps P z x7 := by
    unfold x7
    split
    · with_reducible assumption
    · with_reducible apply discardNumbering_keeps
      with_reducible assumption
  clear_value x7
  have h8 : Keeps P z x8 := by
    unfold x8
    with_reducible apply settleDirection_keeps
    with_reducible assumption
  clear_value x8
  split
  · with_reducible apply planEod_keeps
    with_reducible assumption
  · split
    · with_reducible apply stopWriting_keeps
      with_reducible assumption
    · with_reducible assumption

theorem acceptWaiting_keeps (hz : Keeps P z s) : Keeps P z (acceptWaiting s) := by
  unfold acceptWaiting
  extract_lets x1 x2 x3 x4 x5
  with_reducible assumption

theorem receiveFrom_keeps {appendSet : Bool} {tag : Tag} {fuel n : Nat} (h : Keeps P z s) :
    Keeps P z (receiveFrom appendSet tag fuel n s) := by
  induction fuel generalizing n s with
  | zero => exact h
  | succ fuel ih =>
    unfold receiveFrom
    split
    · exact h
    · split
      · exact h
      · refine ih ?_
        split
        · exact h
        · exact h

end Sys2Proof.Machine
end

