-- ==== Sys2Proof/Laws/KeepsRead.lean ====
section
/-! SUPPORT. `Keeps` for the Read Channel: Machine/Reader and Scan. One lemma per definition. -/

namespace Sys2Proof.Machine

variable {P : Prop} {z s : State}

theorem finishRead_keeps {o : OutcomeBlock} (hz : Keeps P z s) : Keeps P z (finishRead o s) := by
  unfold finishRead
  with_reducible apply finishHead_keeps
  with_reducible assumption

theorem finishEndOfData_keeps (hz : Keeps P z s) : Keeps P z (finishEndOfData s) := by
  unfold finishEndOfData
  with_reducible apply finishRead_keeps
  with_reducible assumption

theorem failRead_keeps {d : Slot} (hz : Keeps P z s) : Keeps P z (failRead d s) := by
  unfold failRead
  extract_lets x1 x2 x3
  have h2 : Keeps P z x2 := by
    unfold x2
    with_reducible assumption
  clear_value x2
  have h3 : Keeps P z x3 := by
    unfold x3
    split
    · with_reducible apply finishRead_keeps
      with_reducible assumption
    · with_reducible assumption
  clear_value x3
  with_reducible apply dropReadSide_keeps
  with_reducible assumption

theorem beginCollection_keeps {dsn : Nat} {purpose : CollectFor} (hz : Keeps P z s) : Keeps P z (beginCollection dsn purpose s) := by
  unfold beginCollection
  extract_lets x1 x2 x3 x4
  with_reducible assumption

theorem beginForward_keeps (hz : Keeps P z s) : Keeps P z (beginForward s) := by
  unfold beginForward
  extract_lets x1 x2
  split
  · with_reducible assumption
  · split
    · split
      · with_reducible assumption
      · with_reducible assumption
    · split
      · split
        · with_reducible assumption
        · split
          · with_reducible assumption
          · with_reducible apply beginCollection_keeps
            with_reducible assumption
      · with_reducible assumption

theorem askReader_keeps (hz : Keeps P z s) : Keeps P z (askReader s) := by
  unfold askReader
  split
  · with_reducible apply startStream_keeps
    with_reducible assumption
  · with_reducible assumption

theorem endCollecting_keeps (hz : Keeps P z s) : Keeps P z (endCollecting s) := by
  unfold endCollecting
  extract_lets x1
  with_reducible assumption

theorem stopAhead_keeps (hz : Keeps P z s) : Keeps P z (stopAhead s) := by
  unfold stopAhead
  extract_lets x1
  split
  · split
    · with_reducible assumption
    · with_reducible assumption
  · with_reducible assumption

theorem restReader_keeps (hz : Keeps P z s) : Keeps P z (restReader s) := by
  unfold restReader
  split
  · with_reducible assumption
  split
  · with_reducible assumption
  split
  · with_reducible assumption
  split
  · with_reducible apply startBackhitch_keeps
    with_reducible assumption
  · with_reducible apply stopTape_keeps
    with_reducible assumption

theorem resumeAfterLadder_keeps (hz : Keeps P z s) : Keeps P z (resumeAfterLadder s) := by
  unfold resumeAfterLadder
  extract_lets x1 x2
  with_reducible apply startStream_keeps
  with_reducible assumption

theorem endReading_keeps {ladder : Bool} (hz : Keeps P z s) : Keeps P z (endReading ladder s) := by
  unfold endReading
  extract_lets x1 x2 x3 x4
  have h1 : Keeps P z x1 := by
    unfold x1
    with_reducible apply endCollecting_keeps
    with_reducible apply stopAhead_keeps
    with_reducible assumption
  clear_value x1
  have h4 : Keeps P z x4 := by
    unfold x4
    split
    · with_reducible assumption
    · split
      · with_reducible assumption
      · with_reducible assumption
  clear_value x4
  with_reducible apply restReader_keeps
  with_reducible assumption

theorem completeFrom_keeps {n : Nat} (h : Keeps P z s) : Keeps P z (completeFrom n s) := by
  induction n generalizing s with
  | zero => exact h
  | succ n completeFrom_keeps =>
    unfold completeFrom
    split
    · exact h
    · split
      · exact h
      · extract_lets hd good m ladder s1 q1 s2 ended s3 q2 s4 s5 q3 q4 s6
        clear_value good
        split
        · have h1 : Keeps P z s1 := changeRead_keeps h
          clear_value s1
          have h2 : Keeps P z s2 := headSample_keeps h1 (sampleOf_le _)
          clear_value s2
          have h3 : Keeps P z s3 := beginCollection_keeps h2
          clear_value s3
          have h4 : Keeps P z s4 := by
            unfold s4
            split
            · exact resumeAfterLadder_keeps h3
            · split
              · exact speedChange_keeps h3
              · exact h3
          clear_value s4
          split
          · exact completeFrom_keeps h4
          · exact endReading_keeps h2
        · have h5 : Keeps P z s5 := changeRead_keeps h
          clear_value s5
          exact restReader_keeps (endCollecting_keeps (latch_keeps (headSample_keeps h5 (sampleOf_le _))))

theorem completeCurrent_keeps (hz : Keeps P z s) : Keeps P z (completeCurrent s) := by
  unfold completeCurrent
  with_reducible apply completeFrom_keeps
  with_reducible assumption

theorem beginPass_keeps {n : Nat} {c : Collector} (hz : Keeps P z s) : Keeps P z (beginPass n c s) := by
  unfold beginPass
  extract_lets x1 x2 x3 x4
  have h4 : Keeps P z x4 := by
    unfold x4
    with_reducible assumption
  clear_value x4
  with_reducible apply startStream_keeps
  with_reducible assumption

theorem endOfRecorded_keeps {c : Collector} (hz : Keeps P z s) : Keeps P z (endOfRecorded c s) := by
  unfold endOfRecorded
  extract_lets x1 x2 x3 x4 x5
  have h3 : Keeps P z x3 := by
    unfold x3
    with_reducible apply endCollecting_keeps
    with_reducible apply freeReadSlot_keeps
    with_reducible assumption
  clear_value x3
  have h5 : Keeps P z x5 := by
    unfold x5
    with_reducible apply restReader_keeps
    with_reducible assumption
  clear_value x5
  split
  · with_reducible apply finishEndOfData_keeps
    with_reducible assumption
  · with_reducible assumption

theorem ladderLost_keeps {c : Collector} (hz : Keeps P z s) : Keeps P z (ladderLost c s) := by
  unfold ladderLost
  extract_lets x1 x2 x3 x4 x5 x6 x7
  have h2 : Keeps P z x2 := by
    unfold x2
    with_reducible apply changeRead_keeps
    with_reducible assumption
  clear_value x2
  have h5 : Keeps P z x5 := by
    unfold x5
    with_reducible apply headSample_keeps
    · with_reducible apply latch_keeps
      with_reducible assumption
    · exact Nat.le_refl _
  clear_value x5
  have h6 : Keeps P z x6 := by
    unfold x6
    with_reducible apply endCollecting_keeps
    with_reducible assumption
  clear_value x6
  with_reducible apply restReader_keeps
  with_reducible assumption

theorem incomplete_keeps {met : EndMet} (hz : Keeps P z s) : Keeps P z (incomplete met s) := by
  unfold incomplete
  split
  · with_reducible assumption
  · extract_lets x1 x2 x3 x4
    have h4 : Keeps P z x4 := by
      unfold x4
      with_reducible assumption
    clear_value x4
    split
    · with_reducible apply endOfRecorded_keeps
      with_reducible assumption
    · split
      · with_reducible apply beginPass_keeps
        with_reducible assumption
      · split
        · with_reducible apply beginPass_keeps
          with_reducible assumption
        · with_reducible apply ladderLost_keeps
          with_reducible assumption

theorem takeData_keeps {dsn : Nat} {index : Nat} {syms : List PSym} {h : Option Header} {c : Collector} (hz : Keeps P z s) : Keeps P z (takeData dsn index syms h c s) := by
  unfold takeData
  extract_lets x1 x2
  split
  · with_reducible apply completeCurrent_keeps
    with_reducible assumption
  · split
    · with_reducible assumption
    · split
      · with_reducible assumption
      · with_reducible apply incomplete_keeps
        with_reducible assumption

theorem takeReadable_keeps {f : TapeFrame} {c : Collector} (hz : Keeps P z s) : Keeps P z (takeReadable f c s) := by
  unfold takeReadable
  extract_lets x1
  split
  · with_reducible apply takeData_keeps
    with_reducible assumption
  · with_reducible apply takeData_keeps
    with_reducible assumption
  · split
    · with_reducible assumption
    · split
      · with_reducible assumption
      · with_reducible assumption
  · split
    · with_reducible apply incomplete_keeps
      with_reducible assumption
    · with_reducible assumption

theorem takeBlank_keeps (hz : Keeps P z s) : Keeps P z (takeBlank s) := by
  unfold takeBlank
  extract_lets x1 x2 x3
  have h3 : Keeps P z x3 := by
    unfold x3
    with_reducible assumption
  clear_value x3
  split
  · with_reducible apply incomplete_keeps
    with_reducible assumption
  · with_reducible assumption

theorem endOfRegion_keeps (hz : Keeps P z s) : Keeps P z (endOfRegion s) := by
  unfold endOfRegion
  extract_lets x1 x2
  split
  · with_reducible apply incomplete_keeps
    with_reducible assumption
  · with_reducible apply turnTo_keeps
    with_reducible assumption

theorem readFrame_keeps {lpos : Nat} {x : Found} (hz : Keeps P z s) : Keeps P z (readFrame lpos x s) := by
  unfold readFrame
  extract_lets x1 x2 x3
  have h2 : Keeps P z x2 := by
    unfold x2
    with_reducible assumption
  clear_value x2
  split
  · with_reducible assumption
  · split
    · with_reducible assumption
    · extract_lets x4
      have h4 : Keeps P z x4 := by
        unfold x4
        split
        · with_reducible apply takeReadable_keeps
          with_reducible assumption
        · with_reducible assumption
        · with_reducible apply takeBlank_keeps
          with_reducible assumption
      clear_value x4
      split
      · with_reducible apply endOfRegion_keeps
        with_reducible assumption
      · with_reducible assumption

theorem formatErrorDrained_keeps {d : Slot} (hz : Keeps P z s) : Keeps P z (formatErrorDrained d s) := by
  unfold formatErrorDrained
  extract_lets x1
  with_reducible apply failRead_keeps
  with_reducible apply latch_keeps
  with_reducible assumption

theorem deliverSlot_keeps {d : Slot} (hz : Keeps P z s) : Keeps P z (deliverSlot d s) := by
  unfold deliverSlot
  with_reducible apply freeReadSlot_keeps
  with_reducible apply evaluate_keeps
  with_reducible assumption

theorem nextRecord_keeps (hz : Keeps P z s) : Keeps P z (nextRecord s) := by
  unfold nextRecord
  extract_lets x1 x2
  with_reducible assumption

theorem recordEnds_keeps {requested : Nat} (hz : Keeps P z s) : Keeps P z (recordEnds requested s) := by
  unfold recordEnds
  extract_lets x1 x2 x3 x4 x5 x6 x7
  have h5 : Keeps P z x5 := by
    unfold x5
    with_reducible apply nextRecord_keeps
    with_reducible assumption
  clear_value x5
  split
  · with_reducible apply finishRead_keeps
    with_reducible assumption
  · split
    · with_reducible apply finishRead_keeps
      with_reducible assumption
    · with_reducible assumption

theorem partDone_keeps {requested : Nat} {d : Slot} {p : Part} {last : Bool} (hz : Keeps P z s) : Keeps P z (partDone requested d p last s) := by
  unfold partDone
  extract_lets x1 x2 x3 x4
  have h3 : Keeps P z x3 := by
    unfold x3
    with_reducible assumption
  clear_value x3
  have h4 : Keeps P z x4 := by
    unfold x4
    split
    · with_reducible apply deliverSlot_keeps
      with_reducible assumption
    · with_reducible assumption
  clear_value x4
  split
  · with_reducible apply recordEnds_keeps
    with_reducible assumption
  · with_reducible assumption

theorem readOn_keeps {requested count n : Nat} (h : Keeps P z s) : Keeps P z (readOn requested count n s) := by
  induction n generalizing s with
  | zero => exact h
  | succ n readOn_keeps =>
    unfold readOn
    split
    · exact h
    split
    · exact finishRead_keeps h
    split
    · exact finishEndOfData_keeps h
    split
    · exact h
    · split
      · exact h
      · exact dropReadSide_keeps (nextRecord_keeps h)
    · exact failRead_keeps (nextRecord_keeps h)
    · split
      · exact dropReadSide_keeps h
      · exact startDraining_keeps h
    · refine finishRead_keeps ?_
      split
      · exact deliverSlot_keeps h
      · exact h
    · dsimp only
      split
      · exact h
      · exact failRead_keeps (nextRecord_keeps h)
      · exact readOn_keeps (deliverSlot_keeps (nextRecord_keeps h))
      · split
        · exact readOn_keeps (partDone_keeps h)
        · exact h

theorem syncWindow_keeps (hz : Keeps P z s) : Keeps P z (syncWindow s) := by
  unfold syncWindow
  extract_lets x1
  split
  · split
    · with_reducible assumption
    · with_reducible assumption
  · with_reducible assumption

theorem advanceRead_keeps (hz : Keeps P z s) : Keeps P z (advanceRead s) := by
  unfold advanceRead
  split
  · with_reducible apply syncWindow_keeps
    with_reducible apply readOn_keeps
    with_reducible assumption
  · with_reducible assumption

theorem sendDataIn_keeps {tag : Tag} {requested : Nat} {d : Slot} {p : Part} {bs : List Byte} {last : Bool} (h : Keeps P z s) :
    Keeps P z (sendDataIn tag requested d p bs last s) := by
  unfold sendDataIn
  extract_lets x1 x2 x3 x4 x5 x6 x7 x8
  have h8 : Keeps P z x8 := by
    unfold x8
    with_reducible apply emit_keeps
    exact { h with sound := fun p => { h.sound p with receive := Nat.le_trans (Nat.sub_le _ _) (h.sound p).receive } }
  clear_value x8
  split
  · with_reducible apply partDone_keeps
    with_reducible assumption
  · with_reducible assumption

theorem dataInStep_keeps (hz : Keeps P z s) : Keeps P z (dataInStep s) := by
  unfold dataInStep
  extract_lets x1 x2
  split
  · split
    · with_reducible apply syncWindow_keeps
      split
      · with_reducible apply partDone_keeps
        with_reducible assumption
      · with_reducible apply sendDataIn_keeps
        with_reducible assumption
    · with_reducible assumption
  · with_reducible assumption

theorem checkDecode_keeps (hz : Keeps P z s) : Keeps P z (checkDecode s) := by
  unfold checkDecode
  extract_lets x1
  split
  · split
    · with_reducible assumption
    · split
      · with_reducible apply syncWindow_keeps
        with_reducible assumption
      · with_reducible apply formatErrorDrained_keeps
        with_reducible assumption
  · with_reducible assumption

theorem settleReader_keeps (hz : Keeps P z s) : Keeps P z (settleReader s) := by
  unfold settleReader
  with_reducible apply askReader_keeps
  with_reducible apply completeCurrent_keeps
  with_reducible apply beginForward_keeps
  with_reducible assumption

theorem endSearch_keeps (hz : Keeps P z s) : Keeps P z (endSearch s) := by
  unfold endSearch
  extract_lets x1
  with_reducible assumption

theorem passOverHead_keeps (hz : Keeps P z s) : Keeps P z (passOverHead s) := by
  unfold passOverHead
  with_reducible apply dropPartial_keeps
  with_reducible assumption

theorem forgetPlace_keeps (hz : Keeps P z s) : Keeps P z (forgetPlace s) := by
  unfold forgetPlace
  with_reducible assumption

theorem failSearch_keeps {p : Option Nat} (hz : Keeps P z s) : Keeps P z (failSearch p s) := by
  unfold failSearch
  extract_lets x1 x2 x3 x4 x5 x6
  have h4 : Keeps P z x4 := by
    unfold x4
    with_reducible apply forgetPlace_keeps
    with_reducible apply stopTape_keeps
    with_reducible apply endSearch_keeps
    with_reducible assumption
  clear_value x4
  split
  · with_reducible assumption
  · with_reducible apply endHead_keeps
    with_reducible apply passOverHead_keeps
    with_reducible assumption

theorem beginScan_keeps {c : Scan} {p : Place} (hz : Keeps P z s) : Keeps P z (beginScan c p s) := by
  unfold beginScan
  extract_lets x1
  with_reducible apply startStream_keeps
  with_reducible assumption

theorem searchWrap_keeps {g : ScanGoal} {t : Nat} {e : DirEntry} {known : Option Due} (hz : Keeps P z s) : Keeps P z (searchWrap g t e known s) := by
  unfold searchWrap
  split
  · with_reducible apply beginScan_keeps
    with_reducible assumption
  · split
    · with_reducible apply beginScan_keeps
      with_reducible assumption
    · with_reducible apply beginScan_keeps
      with_reducible assumption

theorem beginSearch_keeps {g : ScanGoal} {known : Option Due} (hz : Keeps P z s) : Keeps P z (beginSearch g known s) := by
  unfold beginSearch
  extract_lets x1
  split
  · split
    · with_reducible apply searchWrap_keeps
      with_reducible assumption
    · with_reducible apply failSearch_keeps
      with_reducible assumption
  · split
    · with_reducible apply beginScan_keeps
      with_reducible assumption
    · with_reducible apply beginScan_keeps
      with_reducible assumption

theorem fallBack_keeps {c : Scan} (hz : Keeps P z s) : Keeps P z (fallBack c s) := by
  unfold fallBack
  extract_lets x1
  split
  · split
    · with_reducible apply beginScan_keeps
      with_reducible assumption
    · with_reducible apply beginScan_keeps
      with_reducible assumption
    · with_reducible apply beginScan_keeps
      with_reducible assumption
    · with_reducible apply failSearch_keeps
      with_reducible assumption
  · split
    · with_reducible apply beginScan_keeps
      with_reducible assumption
    · with_reducible apply failSearch_keeps
      with_reducible assumption

theorem takeFound_keeps {h : SeenHeader} (hz : Keeps P z s) : Keeps P z (takeFound h s) := by
  unfold takeFound
  extract_lets x1
  with_reducible assumption

theorem foundAppend_keeps {b : Bool} {c : Scan} {h : SeenHeader} (hz : Keeps P z s) : Keeps P z (foundAppend b c h s) := by
  unfold foundAppend
  with_reducible assumption

theorem foundData_keeps {c : Scan} {h : SeenHeader} (hz : Keeps P z s) : Keeps P z (foundData c h s) := by
  unfold foundData
  extract_lets x1 x3 x4
  have h1 : Keeps P z x1 := by
    unfold x1
    with_reducible apply endSearch_keeps
    with_reducible apply takeFound_keeps
    with_reducible assumption
  clear_value x1
  split
  · split
    · with_reducible assumption
    · with_reducible apply beginCollection_keeps
      with_reducible assumption
  · with_reducible apply foundAppend_keeps
    with_reducible assumption
  · with_reducible apply startBackhitch_keeps
    with_reducible assumption

theorem seekEod_keeps {c : Scan} (hz : Keeps P z s) : Keeps P z (seekEod c s) := by
  unfold seekEod
  extract_lets x1 x2 x3
  with_reducible apply startSeek_keeps
  with_reducible assumption

theorem arriveFound_keeps (hz : Keeps P z s) : Keeps P z (arriveFound s) := by
  unfold arriveFound
  extract_lets x1 x2
  have h1 : Keeps P z x1 := by
    unfold x1
    with_reducible apply endSearch_keeps
    with_reducible assumption
  clear_value x1
  split
  · with_reducible assumption
  · extract_lets x3 x4 x5 x6
    have h3 : Keeps P z x3 := by
      unfold x3
      split
      · with_reducible apply takeFound_keeps
        with_reducible assumption
      · with_reducible assumption
    clear_value x3
    have h5 : Keeps P z x5 := by
      unfold x5
      with_reducible assumption
    clear_value x5
    split
    · extract_lets x7
      have h7 : Keeps P z x7 := by
        unfold x7
        with_reducible apply endHead_keeps
        with_reducible assumption
      clear_value x7
      split
      · with_reducible apply endHead_keeps
        with_reducible assumption
      · split
        · split
          · with_reducible assumption
          · with_reducible apply beginCollection_keeps
            with_reducible assumption
        · with_reducible assumption
    · with_reducible apply endHead_keeps
      with_reducible assumption
    · with_reducible apply endHead_keeps
      with_reducible assumption

theorem settle_keeps {p : Nat} {r : Option Reason} {residue : Nat} {h : Option SeenHeader} {c : Scan} (hz : Keeps P z s) : Keeps P z (settle p r residue h c s) := by
  unfold settle
  extract_lets x1 x2
  split
  · with_reducible apply seekEod_keeps
    with_reducible assumption
  · split
    · split
      · with_reducible apply foundData_keeps
        with_reducible assumption
      · with_reducible assumption
    · with_reducible assumption

theorem countHeader_keeps {kind : SpaceKind} {dir : Dir} {left : Nat} {reached : Nat} {h : SeenHeader} {c : Scan} (hz : Keeps P z s) : Keeps P z (countHeader kind dir left reached h c s) := by
  unfold countHeader
  extract_lets x1 x2 x3
  split
  · with_reducible apply settle_keeps
    with_reducible assumption
  · with_reducible apply settle_keeps
    with_reducible assumption
  · extract_lets x4
    split
    · split
      · with_reducible apply settle_keeps
        with_reducible assumption
      · with_reducible assumption
    · split
      · with_reducible apply settle_keeps
        with_reducible assumption
      · with_reducible assumption

theorem spaceOnward_keeps {kind : SpaceKind} {dir : Dir} {left : Nat} {reached : Nat} {ahead : List DirEntry} {c : Scan} (hz : Keeps P z s) : Keeps P z (spaceOnward kind dir left reached ahead c s) := by
  unfold spaceOnward
  split
  · extract_lets x1
    split
    · split
      · with_reducible apply settle_keeps
        with_reducible assumption
      · split
        · with_reducible apply beginScan_keeps
          with_reducible assumption
        · with_reducible apply failSearch_keeps
          with_reducible assumption
    · split
      · with_reducible apply beginScan_keeps
        with_reducible assumption
      · split
        · with_reducible apply beginScan_keeps
          with_reducible assumption
        · with_reducible apply failSearch_keeps
          with_reducible assumption

theorem turnBack_keeps {kind : SpaceKind} {left : Nat} {reached : Nat} {h : Option SeenHeader} {c : Scan} (hz : Keeps P z s) : Keeps P z (turnBack kind left reached h c s) := by
  unfold turnBack
  extract_lets x1 x2
  split
  · with_reducible apply beginScan_keeps
    with_reducible assumption
  · extract_lets x3
    have h3 : Keeps P z x3 := by
      unfold x3
      with_reducible apply countHeader_keeps
      with_reducible assumption
    clear_value x3
    split
    · with_reducible apply beginScan_keeps
      with_reducible assumption
    · with_reducible assumption

theorem seekHelp_keeps {x : Due} {p : Place} {h : Option SeenHeader} {c : Scan} (hz : Keeps P z s) : Keeps P z (seekHelp x p h c s) := by
  unfold seekHelp
  extract_lets x1 x2 x3 x4 x5
  have h1 : Keeps P z x1 := by
    unfold x1
    split
    · with_reducible assumption
    · with_reducible apply dropReadSide_keeps
      with_reducible assumption
  clear_value x1
  have h3 : Keeps P z x3 := by
    unfold x3
    with_reducible assumption
  clear_value x3
  have h4 : Keeps P z x4 := by
    unfold x4
    with_reducible apply beginCollection_keeps
    with_reducible assumption
  clear_value x4
  with_reducible assumption

theorem searchPassed_keeps {c : Scan} (hz : Keeps P z s) : Keeps P z (searchPassed c s) := by
  unfold searchPassed
  split
  · with_reducible apply fallBack_keeps
    with_reducible assumption
  · with_reducible apply failSearch_keeps
    with_reducible assumption

theorem stepAppend_keeps {n m : Nat} {c : Scan} {h : SeenHeader} (hz : Keeps P z s) : Keeps P z (stepAppend n m c h s) := by
  unfold stepAppend
  split
  · split
    · exact foundAppend_keeps hz
    · split
      · exact foundAppend_keeps hz
      · exact failSearch_keeps hz
  · split
    · with_reducible assumption
    split
    · exact foundData_keeps hz
    split
    · exact searchPassed_keeps hz
    · with_reducible assumption

theorem stepHeader_keeps {c : Scan} {h : SeenHeader} (hz : Keeps P z s) : Keeps P z (stepHeader c h s) := by
  unfold stepHeader
  extract_lets x1 x2 x3
  have h3 : Keeps P z x3 := by
    unfold x3
    with_reducible assumption
  clear_value x3
  split
  · with_reducible apply countHeader_keeps
    with_reducible assumption
  · split
    · with_reducible apply countHeader_keeps
      with_reducible assumption
    · split
      · with_reducible apply searchPassed_keeps
        with_reducible assumption
      · with_reducible assumption
  · split
    · with_reducible apply turnBack_keeps
      with_reducible assumption
    · with_reducible assumption
  · split
    · with_reducible apply foundData_keeps
      with_reducible assumption
    · split
      · with_reducible apply failSearch_keeps
        with_reducible assumption
      · with_reducible assumption
  · exact stepAppend_keeps hz
  · split
    · with_reducible apply foundData_keeps
      with_reducible assumption
    · split
      · with_reducible apply searchPassed_keeps
        with_reducible assumption
      · with_reducible assumption

theorem newHeader_keeps {c : Scan} {h : SeenHeader} (hz : Keeps P z s) : Keeps P z (newHeader c h s) := by
  unfold newHeader
  split
  · with_reducible apply stepHeader_keeps
    with_reducible assumption
  · split
    · split
      · split
        · with_reducible assumption
        · with_reducible apply stepHeader_keeps
          with_reducible assumption
      · split
        · split
          · with_reducible apply seekHelp_keeps
            with_reducible assumption
          · with_reducible apply stepHeader_keeps
            with_reducible assumption
        · split
          · with_reducible apply stepHeader_keeps
            with_reducible assumption
          · with_reducible assumption
    · split
      · with_reducible assumption
      · split
        · split
          · with_reducible apply seekHelp_keeps
            with_reducible assumption
          · with_reducible apply stepHeader_keeps
            with_reducible assumption
        · split
          · split
            · with_reducible apply failSearch_keeps
              with_reducible assumption
            · with_reducible apply stepHeader_keeps
              with_reducible assumption
          · with_reducible apply stepHeader_keeps
            with_reducible assumption

theorem headerRead_keeps {p : Place} (hz : Keeps P z s) : Keeps P z (headerRead p s) := by
  unfold headerRead
  with_reducible assumption

theorem scanHeader_keeps {h : SeenHeader} (hz : Keeps P z s) : Keeps P z (scanHeader h s) := by
  unfold scanHeader
  extract_lets x1
  split
  · with_reducible assumption
  · split
    · with_reducible assumption
    · split
      · with_reducible apply newHeader_keeps
        with_reducible assumption
      · split
        · with_reducible apply newHeader_keeps
          with_reducible assumption
        · split
          · with_reducible assumption
          · with_reducible assumption

theorem scanEnd_keeps (hz : Keeps P z s) : Keeps P z (scanEnd s) := by
  unfold scanEnd
  split
  · with_reducible assumption
  · extract_lets x1 x2 x3
    split
    · split
      · split
        · with_reducible apply seekHelp_keeps
          with_reducible assumption
        · with_reducible apply failSearch_keeps
          with_reducible assumption
      · split
        · with_reducible apply fallBack_keeps
          with_reducible assumption
        · with_reducible apply failSearch_keeps
          with_reducible assumption
      · with_reducible apply failSearch_keeps
        with_reducible assumption
    · split
      · with_reducible apply fallBack_keeps
        with_reducible assumption
      · split
        · have h5 : Keeps P z (stopTape (endSearch { s with dbf.readAheadActive := false })) := by
            with_reducible apply stopTape_keeps
            with_reducible apply endSearch_keeps
            with_reducible assumption
          split
          · with_reducible apply finishEndOfData_keeps
            with_reducible assumption
          · with_reducible assumption
        · with_reducible apply turnBack_keeps
          with_reducible assumption
        · with_reducible apply foundData_keeps
          with_reducible assumption
        · with_reducible apply foundData_keeps
          with_reducible assumption
        · with_reducible apply failSearch_keeps
          with_reducible assumption

theorem scanGap_keeps (hz : Keeps P z s) : Keeps P z (scanGap s) := by
  unfold scanGap
  split
  · with_reducible assumption
  · split
    · split
      · with_reducible apply scanEnd_keeps
        with_reducible assumption
      · with_reducible apply seekHelp_keeps
        with_reducible assumption
    · with_reducible apply scanEnd_keeps
      with_reducible assumption

theorem scanBlank_keeps {c : Scan} (hz : Keeps P z s) : Keeps P z (scanBlank c s) := by
  unfold scanBlank
  extract_lets x1 x2 x3
  split
  · with_reducible apply scanGap_keeps
    with_reducible assumption
  · with_reducible assumption

theorem scanWrap_keeps {c : Scan} (hz : Keeps P z s) : Keeps P z (scanWrap c s) := by
  unfold scanWrap
  extract_lets x1 x2 x3 x4 x5 x6
  split
  · split
    · with_reducible apply scanGap_keeps
      with_reducible assumption
    · split
      · split
        split
        · with_reducible apply spaceOnward_keeps
          with_reducible assumption
        · with_reducible apply turnTo_keeps
          with_reducible assumption
      · with_reducible apply turnTo_keeps
        with_reducible assumption
  · split
    · split
      · with_reducible apply seekHelp_keeps
        with_reducible assumption
      · with_reducible apply foundData_keeps
        with_reducible assumption
      · with_reducible apply failSearch_keeps
        with_reducible assumption
    · split
      · split
        split
        · with_reducible apply spaceOnward_keeps
          with_reducible assumption
        · with_reducible apply turnTo_keeps
          with_reducible assumption
      · with_reducible apply turnTo_keeps
        with_reducible assumption

theorem scanFrame_keeps {lpos : Nat} {x : Found} (hz : Keeps P z s) : Keeps P z (scanFrame lpos x s) := by
  unfold scanFrame
  extract_lets x1 x2 x3
  have h2 : Keeps P z x2 := by
    unfold x2
    with_reducible assumption
  clear_value x2
  split
  · with_reducible assumption
  · split
    · with_reducible assumption
    · extract_lets x4 x5
      have h4 : Keeps P z x4 := by
        unfold x4
        with_reducible assumption
      clear_value x4
      have h5 : Keeps P z x5 := by
        unfold x5
        split
        · extract_lets x6
          with_reducible apply scanHeader_keeps
          with_reducible apply headerRead_keeps
          with_reducible assumption
        · with_reducible assumption
        · split
          · split
            · with_reducible apply scanEnd_keeps
              with_reducible assumption
            · with_reducible assumption
            · with_reducible apply scanGap_keeps
              with_reducible assumption
            · with_reducible apply fallBack_keeps
              with_reducible assumption
          · with_reducible assumption
        · with_reducible assumption
        · with_reducible assumption
        · with_reducible apply scanBlank_keeps
          with_reducible assumption
      clear_value x5
      split
      · split
        · with_reducible apply scanWrap_keeps
          with_reducible assumption
        · with_reducible assumption
      · with_reducible assumption

theorem scanAgain_keeps (hz : Keeps P z s) : Keeps P z (scanAgain s) := by
  unfold scanAgain
  extract_lets x1
  split
  · with_reducible assumption
  · split
    · with_reducible assumption
    · split
      · with_reducible apply beginScan_keeps
        with_reducible assumption
      · extract_lets x2
        have h2 : Keeps P z x2 := by
          unfold x2
          with_reducible apply scanHeader_keeps
          with_reducible assumption
        clear_value x2
        split
        · with_reducible apply beginScan_keeps
          with_reducible assumption
        · with_reducible assumption

theorem helpLost_keeps {c : Scan} {x : Due} (hz : Keeps P z s) : Keeps P z (helpLost c x s) := by
  unfold helpLost
  extract_lets x1 x2 x3 x4 x5
  split
  · with_reducible apply failSearch_keeps
    with_reducible assumption
  · split
    · with_reducible apply foundData_keeps
      with_reducible assumption
    · with_reducible apply failSearch_keeps
      with_reducible assumption
  · with_reducible apply failSearch_keeps
    with_reducible assumption

theorem helpEnded_keeps (h : Keeps P z s) : Keeps P z (helpEnded s) := by
  unfold helpEnded
  extract_lets x1 x2 x3 x4
  have h2 : Keeps P z x2 := by
    unfold x2
    clear_value x1
    split
    · exact freeReadSlot_keeps h
    · exact h
  clear_value x2
  have h4 : Keeps P z x4 := by
    unfold x4
    with_reducible assumption
  clear_value x4
  split
  · split
    · split
      · with_reducible apply helpLost_keeps
        with_reducible assumption
      · with_reducible apply scanAgain_keeps
        with_reducible apply newHeader_keeps
        with_reducible assumption
    · with_reducible apply helpLost_keeps
      with_reducible assumption
    · with_reducible apply failSearch_keeps
      with_reducible assumption
  · with_reducible assumption

theorem beginRebuild_keeps (hz : Keeps P z s) : Keeps P z (beginRebuild s) := by
  unfold beginRebuild
  extract_lets x1 x2 x3 x4
  have h1 : Keeps P z x1 := by
    unfold x1
    with_reducible apply dropReadSide_keeps
    with_reducible assumption
  clear_value x1
  with_reducible apply startStream_keeps
  with_reducible assumption

theorem endRebuild_keeps {r : Rebuild} {place : Place} (hz : Keeps P z s) : Keeps P z (endRebuild r place s) := by
  unfold endRebuild
  extract_lets x1 x2 x3 x4 x5
  with_reducible apply latch_keeps
  with_reducible apply setEarlyWarning_keeps
  with_reducible assumption

theorem dropRebuild_keeps (hz : Keeps P z s) : Keeps P z (dropRebuild s) := by
  unfold dropRebuild
  extract_lets x1
  with_reducible assumption

theorem failRebuild_keeps (hz : Keeps P z s) : Keeps P z (failRebuild s) := by
  unfold failRebuild
  extract_lets x1
  have h1 : Keeps P z x1 := by
    unfold x1
    with_reducible apply stopTape_keeps
    with_reducible apply dropRebuild_keeps
    with_reducible assumption
  clear_value x1
  with_reducible apply endHead_keeps
  with_reducible apply passOverHead_keeps
  with_reducible assumption

theorem rebuildTail_keeps {r : Rebuild} (hz : Keeps P z s) : Keeps P z (rebuildTail r s) := by
  unfold rebuildTail
  extract_lets x1 x2
  have h2 : Keeps P z x2 := by
    unfold x2
    with_reducible assumption
  clear_value x2
  split
  · with_reducible apply endRebuild_keeps
    with_reducible apply stopTape_keeps
    with_reducible assumption
  · extract_lets x3 x4
    have h3 : Keeps P z x3 := by
      unfold x3
      with_reducible apply beginCollection_keeps
      with_reducible assumption
    clear_value x3
    with_reducible assumption

theorem acceptOrEnd_keeps {h : Header} {p : Place} {r : Rebuild} (hz : Keeps P z s) : Keeps P z (acceptOrEnd h p r s) := by
  unfold acceptOrEnd
  extract_lets x1
  split
  · with_reducible assumption
  · with_reducible apply rebuildTail_keeps
    with_reducible assumption

theorem rebuildHeader_keeps {h : Header} {p : Place} {r : Rebuild} (hz : Keeps P z s) : Keeps P z (rebuildHeader h p r s) := by
  unfold rebuildHeader
  extract_lets x1 x2 x3 x4
  have h2 : Keeps P z x2 := by
    unfold x2
    with_reducible assumption
  clear_value x2
  split
  · split
    · with_reducible assumption
    · with_reducible apply acceptOrEnd_keeps
      with_reducible assumption
  · with_reducible apply acceptOrEnd_keeps
    with_reducible assumption

theorem rebuildSeek_keeps {r : Rebuild} (hz : Keeps P z s) : Keeps P z (rebuildSeek r s) := by
  unfold rebuildSeek
  extract_lets x1 x2 x3 x4 x5
  have h3 : Keeps P z x3 := by
    unfold x3
    with_reducible assumption
  clear_value x3
  have h4 : Keeps P z x4 := by
    unfold x4
    with_reducible apply beginCollection_keeps
    with_reducible assumption
  clear_value x4
  with_reducible assumption

theorem rebuildBlank_keeps {r : Rebuild} (hz : Keeps P z s) : Keeps P z (rebuildBlank r s) := by
  unfold rebuildBlank
  extract_lets x1 x2 x3 x4
  have h4 : Keeps P z x4 := by
    unfold x4
    with_reducible assumption
  clear_value x4
  split
  · with_reducible apply rebuildTail_keeps
    with_reducible assumption
  · with_reducible assumption

theorem rebuildFrameStep_keeps {lpos : Nat} {x : Found} (hz : Keeps P z s) : Keeps P z (rebuildFrameStep lpos x s) := by
  unfold rebuildFrameStep
  extract_lets x1 x2 x3
  have h2 : Keeps P z x2 := by
    unfold x2
    with_reducible assumption
  clear_value x2
  split
  · with_reducible assumption
  · split
    · with_reducible assumption
    · extract_lets x4 x5 x6 x7 x8
      have h5 : Keeps P z x5 := by
        unfold x5
        with_reducible assumption
      clear_value x5
      have h7 : Keeps P z x7 := by
        unfold x7
        split
        · with_reducible apply rebuildHeader_keeps
          with_reducible assumption
        · split
          · with_reducible apply rebuildSeek_keeps
            with_reducible assumption
          · with_reducible assumption
        · with_reducible assumption
        · split
          · with_reducible apply endRebuild_keeps
            with_reducible apply stopTape_keeps
            with_reducible assumption
          · with_reducible assumption
        · with_reducible assumption
        · with_reducible apply rebuildBlank_keeps
          with_reducible assumption
      clear_value x7
      split
      · with_reducible assumption
      split
      · split
        · with_reducible apply turnTo_keeps
          with_reducible assumption
        · with_reducible assumption
      split
      · split
        · with_reducible apply rebuildTail_keeps
          with_reducible assumption
        · with_reducible assumption
      · with_reducible assumption

theorem rebuildCollected_keeps {r : Rebuild} {d : Slot} (hz : Keeps P z s) : Keeps P z (rebuildCollected r d s) := by
  unfold rebuildCollected
  extract_lets x1 x2
  have h2 : Keeps P z x2 := by
    unfold x2
    with_reducible apply rebuildHeader_keeps
    with_reducible assumption
  clear_value x2
  split
  · with_reducible apply failRebuild_keeps
    with_reducible assumption
  · with_reducible apply rebuildTail_keeps
    with_reducible assumption
  · split
    · with_reducible apply startStream_keeps
      with_reducible assumption
    · with_reducible assumption

theorem rebuildHelpEnded_keeps (hz : Keeps P z s) : Keeps P z (rebuildHelpEnded s) := by
  unfold rebuildHelpEnded
  extract_lets x1
  split
  · split
    · extract_lets x2 x3
      have h2 : Keeps P z x2 := by
        unfold x2
        with_reducible apply freeReadSlot_keeps
        with_reducible assumption
      clear_value x2
      with_reducible apply rebuildCollected_keeps
      with_reducible assumption
    · with_reducible apply rebuildTail_keeps
      with_reducible assumption
  · split
    · extract_lets x4 x5 x6 x7
      have h4 : Keeps P z x4 := by
        unfold x4
        with_reducible apply freeReadSlot_keeps
        with_reducible assumption
      clear_value x4
      have h6 : Keeps P z x6 := by
        unfold x6
        with_reducible assumption
      clear_value x6
      split
      · with_reducible apply rebuildTail_keeps
        with_reducible assumption
      · with_reducible apply endRebuild_keeps
        with_reducible apply stopTape_keeps
        with_reducible assumption
    · with_reducible apply rebuildTail_keeps
      with_reducible assumption
  · with_reducible assumption

end Sys2Proof.Machine
end

