-- ==== Sys2Proof/Laws/KeepsHandler.lean ====
section
/-! SUPPORT. `Keeps` for the Cartridge Handler, the motion events, the medium commands, what follows a step, and the resets. One lemma per definition. -/

namespace Sys2Proof.Machine

variable {P : Prop} {z s : State}

theorem settleSeek_keeps (hz : Keeps P z s) : Keeps P z (settleSeek s) := by
  unfold settleSeek
  extract_lets x1
  split
  · with_reducible assumption
  · with_reducible assumption

theorem refreshEffective_keeps (hz : Keeps P z s) : Keeps P z (refreshEffective s) := by
  unfold refreshEffective
  extract_lets x1
  with_reducible assumption

theorem seat_keeps {c : Cartridge} (hz : Keeps P z s) : Keeps P z (seat c s) := by
  unfold seat
  extract_lets x1
  with_reducible apply refreshEffective_keeps
  with_reducible apply latch_keeps
  with_reducible assumption

theorem takeDirectory_keeps (hz : Keeps P z s) : Keeps P z (takeDirectory s) := by
  unfold takeDirectory
  extract_lets x1 x2 x3
  have h1 : Keeps P z x1 := by
    unfold x1
    with_reducible apply forgetDirectory_keeps
    with_reducible assumption
  clear_value x1
  split
  · split
    · with_reducible apply latch_keeps
      with_reducible apply forgetDirectory_keeps
      with_reducible assumption
    · split
      · with_reducible assumption
      · with_reducible assumption
  · with_reducible apply latch_keeps
    with_reducible apply forgetDirectory_keeps
    with_reducible assumption

theorem beginAcquire_keeps (hz : Keeps P z s) : Keeps P z (beginAcquire s) := by
  unfold beginAcquire
  extract_lets x1
  with_reducible apply enterPhase_keeps
  with_reducible assumption

theorem beginPush_keeps {st : Stage} {attempt : Nat} (hz : Keeps P z s) : Keeps P z (beginPush st attempt s) := by
  unfold beginPush
  extract_lets x1 x2
  have h2 : Keeps P z x2 := by
    unfold x2
    with_reducible assumption
  clear_value x2
  split
  · with_reducible apply beginAcquire_keeps
    with_reducible assumption
  · with_reducible assumption

theorem pushNext_keeps (hz : Keeps P z s) : Keeps P z (pushNext s) := by
  unfold pushNext
  split
  · with_reducible apply beginPush_keeps
    with_reducible assumption
  · with_reducible assumption

theorem beginThread_keeps {who : Orderer} (hz : Keeps P z s) : Keeps P z (beginThread who s) := by
  unfold beginThread
  extract_lets x1
  with_reducible apply pushNext_keeps
  with_reducible assumption

theorem beginCleaning_keeps {uses : Nat} (hz : Keeps P z s) : Keeps P z (beginCleaning uses s) := by
  unfold beginCleaning
  extract_lets x1
  with_reducible assumption

theorem startNegotiated_keeps (hz : Keeps P z s) : Keeps P z (startNegotiated s) := by
  unfold startNegotiated
  split
  · with_reducible assumption
  · split
    · split
      · with_reducible apply beginCleaning_keeps
        with_reducible assumption
      · split
        · with_reducible apply beginThread_keeps
          with_reducible assumption
        · with_reducible assumption
    · split
      · with_reducible apply beginThread_keeps
        with_reducible assumption
      · with_reducible assumption

theorem driveReady_keeps (hz : Keeps P z s) : Keeps P z (driveReady s) := by
  unfold driveReady
  extract_lets x1 x2 x3 x4
  have h2 : Keeps P z x2 := by
    unfold x2
    with_reducible apply latch_keeps
    with_reducible assumption
  clear_value x2
  have h4 : Keeps P z x4 := by
    unfold x4
    split
    · with_reducible apply latchAll_keeps
      with_reducible assumption
    · with_reducible assumption
  clear_value x4
  with_reducible apply startNegotiated_keeps
  with_reducible assumption

theorem endRecovery_keeps (hz : Keeps P z s) : Keeps P z (endRecovery s) := by
  unfold endRecovery
  extract_lets x1
  split
  · with_reducible apply driveReady_keeps
    with_reducible assumption
  · with_reducible assumption

theorem negotiate_keeps (h : Keeps P z s) : Keeps P z (negotiate s) := by
  unfold negotiate
  dsimp only
  split
  · have h1 : Keeps P z (setFormatCap 6 { s with cah.mode := none, cah.negotiated := none }) := setFormatCap_keeps h (by decide)
    generalize setFormatCap 6 _ = y at h1
    split
    · exact endRecovery_keeps (latch_keeps h1)
    · split
      · exact endRecovery_keeps (latch_keeps h1)
      · split
        · exact endRecovery_keeps h1
        · exact startNegotiated_keeps h1
  · have h1 : Keeps P z (takeDirectory { s with
        cah.mode := some (negotiatedMode s.cah.image s.cah.writeProtected)
        cah.negotiated := some (negotiatedMode s.cah.image s.cah.writeProtected) }) := takeDirectory_keeps h
    generalize takeDirectory _ = y at h1
    have h2 : Keeps P z (setFormatCap (formatCapOf (negotiatedMode s.cah.image s.cah.writeProtected)) y) :=
      setFormatCap_keeps h1 (formatCapOf_range _)
    generalize setFormatCap _ y = w at h2
    split
    · split
      · exact endRecovery_keeps (latch_keeps h2)
      · exact startNegotiated_keeps (latch_keeps h2)
    · split
      · exact endRecovery_keeps h2
      · exact startNegotiated_keeps h2

theorem cmReadEnds_keeps {ok : Bool} (hz : Keeps P z s) : Keeps P z (cmReadEnds ok s) := by
  unfold cmReadEnds
  extract_lets x1
  split
  · with_reducible assumption
  · split
    · with_reducible apply negotiate_keeps
      with_reducible assumption
    · split
      · with_reducible assumption
      · with_reducible apply negotiate_keeps
        with_reducible apply reportFault_keeps
        with_reducible assumption

theorem endThread_keeps {r : Reply} (hz : Keeps P z s) : Keeps P z (endThread r s) := by
  unfold endThread
  split
  · with_reducible apply finishHead_keeps
    with_reducible assumption
  · with_reducible assumption

theorem endUnthread_keeps {o : Reply} (hz : Keeps P z s) : Keeps P z (endUnthread o s) := by
  unfold endUnthread
  extract_lets x1
  split
  · with_reducible apply finishHead_keeps
    with_reducible assumption
  · with_reducible apply finishHead_keeps
    with_reducible assumption
  · with_reducible assumption

theorem beginEject_keeps (hz : Keeps P z s) : Keeps P z (beginEject s) := by
  unfold beginEject
  extract_lets x1
  with_reducible assumption

theorem passCustody_keeps {p : Port} (hz : Keeps P z s) : Keeps P z (passCustody p s) := by
  unfold passCustody
  extract_lets x1
  split
  · with_reducible assumption
  · with_reducible apply latch_keeps
    with_reducible assumption

theorem settleQuestion_keeps {granted : Bool} (hz : Keeps P z s) : Keeps P z (settleQuestion granted s) := by
  unfold settleQuestion
  extract_lets x1 x2 x3
  have h3 : Keeps P z x3 := by
    unfold x3
    with_reducible assumption
  clear_value x3
  split
  · with_reducible assumption
  · extract_lets x4
    have h4 : Keeps P z x4 := by
      unfold x4
      split
      · with_reducible apply passCustody_keeps
        with_reducible assumption
      · with_reducible assumption
    clear_value x4
    split
    · with_reducible apply dropTag_keeps
      with_reducible apply reply_keeps
      with_reducible assumption
    · with_reducible assumption

theorem beginPop_keeps (hz : Keeps P z s) : Keeps P z (beginPop s) := by
  unfold beginPop
  extract_lets x1
  split
  · with_reducible assumption
  · with_reducible assumption

theorem ejectDone_keeps (h : Keeps P z s) : Keeps P z (ejectDone s) := by
  unfold ejectDone
  extract_lets x0 x1 x2 x5 x3 x6 x4
  have h1 : Keeps P z x1 := forgetDirectory_keeps (setFormatCap_keeps h (by decide))
  clear_value x1
  have h2 : Keeps P z x2 := settleQuestion_keeps h1
  clear_value x2
  have h5 : Keeps P z x5 := passCustody_keeps h2
  clear_value x5
  have h6 : Keeps P z x6 := h5
  clear_value x6 x3
  have h4 : Keeps P z x4 := latch_keeps h6
  clear_value x4
  split
  · exact finishHead_keeps h4
  · exact h4

theorem recoverCustody_keeps (hz : Keeps P z s) : Keeps P z (recoverCustody s) := by
  unfold recoverCustody
  split
  · split
    · with_reducible apply settleQuestion_keeps
      with_reducible assumption
    · with_reducible apply passCustody_keeps
      with_reducible assumption
  · with_reducible apply passCustody_keeps
    with_reducible assumption

theorem stackEmptied_keeps (h : Keeps P z s) : Keeps P z (stackEmptied s) := by
  unfold stackEmptied
  extract_lets x1 x2 x3 x4 _ x5
  have h4 : Keeps P z x4 := h
  clear_value x4 x1 x2
  split
  · exact endUnthread_keeps (endThread_keeps h4)
  · exact endUnthread_keeps (endThread_keeps h4)
  · split
    · split
      · with_reducible apply beginEject_keeps
        exact storeRetained_keeps (latch_keeps h4)
      · exact endUnthread_keeps (storeRetained_keeps (latch_keeps h4))
    · exact endUnthread_keeps (storeRetained_keeps (latch_keeps h4))
  · split
    · exact storeRetained_keeps (latch_keeps h4)
    · refine latch_keeps (storeRetained_keeps (setConditionCap_keeps (k := x4.hcm) (cap := x4.moc.conditionCap) ?_ ?_))
      exact h4
      exact fun p => ⟨Nat.zero_le _, Nat.le_refl _, by simp, rfl⟩
  · split
    · exact storeRetained_keeps (latch_keeps h4)
    · refine latch_keeps (storeRetained_keeps (setConditionCap_keeps (k := x4.hcm) (cap := x4.moc.conditionCap) ?_ ?_))
      exact h4
      exact fun p => ⟨Nat.zero_le _, Nat.le_refl _, by simp, rfl⟩
  · exact recoverCustody_keeps (storeRetained_keeps (latch_keeps h4))
  · exact h4
  · exact h4

theorem unwindStack_keeps {u : Unwind} (hz : Keeps P z s) : Keeps P z (unwindStack u s) := by
  unfold unwindStack
  extract_lets x1 x2
  have h2 : Keeps P z x2 := by
    unfold x2
    with_reducible assumption
  clear_value x2
  split
  · with_reducible apply stackEmptied_keeps
    with_reducible assumption
  · split
    · with_reducible assumption
    · with_reducible apply beginPop_keeps
      with_reducible assumption

theorem stopAcquire_keeps (hz : Keeps P z s) : Keeps P z (stopAcquire s) := by
  unfold stopAcquire
  split
  · with_reducible apply stopTape_keeps
    with_reducible assumption
  · with_reducible assumption

theorem abortThread_keeps (hz : Keeps P z s) : Keeps P z (abortThread s) := by
  unfold abortThread
  split
  · split
    · with_reducible apply unwindStack_keeps
      with_reducible assumption
    · with_reducible assumption
  · with_reducible apply unwindStack_keeps
    with_reducible apply stopAcquire_keeps
    with_reducible assumption

theorem threadComplete_keeps (h : Keeps P z s) : Keeps P z (threadComplete s) := by
  unfold threadComplete
  extract_lets x1 x2 x3 x4 x5 x6 x7 x8 x9
  have hr : 256 ≤ x2 ∧ x2 ≤ 8192 := by
    unfold x2
    clear_value x1
    split
    · split
      · assumption
      · decide
    · decide
  clear_value x2 x1
  have h9 : Keeps P z x9 := by
    refine { h with sound := fun p => { h.sound p with tag := Nat.zero_lt_succ _, governor := ?_ } }
    have hk := (levelCap_range s.hcm.level).1
    rw [← (h.sound p).head.2.2.2] at hk
    have hf := (h.sound p).governor.2.2.2.1
    refine ⟨hr.1, hr.2, fun _ hx => (by cases hx), hf, ?_, Nat.min_le_left _ _⟩
    exact Nat.le_min.2 ⟨cap_pos hf hk, by decide⟩
  clear_value x9
  exact endThread_keeps (latch_keeps (refreshEffective_keeps (setEarlyWarning_keeps h9)))

theorem beginCleaningRun_keeps (hz : Keeps P z s) : Keeps P z (beginCleaningRun s) := by
  unfold beginCleaningRun
  extract_lets x1 x2
  with_reducible apply startStream_keeps
  with_reducible assumption

theorem beginRecoveryRewind_keeps (hz : Keeps P z s) : Keeps P z (beginRecoveryRewind s) := by
  unfold beginRecoveryRewind
  extract_lets x1
  with_reducible apply enterPhase_keeps
  with_reducible assumption

theorem stagePushed_keeps (hz : Keeps P z s) : Keeps P z (stagePushed s) := by
  unfold stagePushed
  extract_lets x1
  split
  · with_reducible assumption
  · extract_lets x2 x3 x4
    have h2 : Keeps P z x2 := by
      unfold x2
      with_reducible assumption
    clear_value x2
    have h3 : Keeps P z x3 := by
      unfold x3
      split
      · with_reducible apply comeToRest_keeps
        with_reducible assumption
      · with_reducible assumption
    clear_value x3
    have h4 : Keeps P z x4 := by
      unfold x4
      split
      · with_reducible apply atBot_keeps
        with_reducible assumption
      · with_reducible assumption
    clear_value x4
    split
    · with_reducible assumption
    · split
      · with_reducible apply pushNext_keeps
        with_reducible assumption
      · split
        · with_reducible apply beginRecoveryRewind_keeps
          with_reducible assumption
        · split
          · with_reducible apply beginCleaningRun_keeps
            with_reducible assumption
          · with_reducible apply threadComplete_keeps
            with_reducible assumption

theorem stageTimedOut_keeps (hz : Keeps P z s) : Keeps P z (stageTimedOut s) := by
  unfold stageTimedOut
  extract_lets x1 x2
  have h1 : Keeps P z x1 := by
    unfold x1
    with_reducible apply latch_keeps
    with_reducible assumption
  clear_value x1
  have h2 : Keeps P z x2 := by
    unfold x2
    split
    · with_reducible apply latch_keeps
      with_reducible assumption
    · with_reducible assumption
  clear_value x2
  split
  · with_reducible assumption
  · split
    · with_reducible assumption
    · split
      · with_reducible apply beginPush_keeps
        with_reducible assumption
      · with_reducible apply unwindStack_keeps
        with_reducible apply stopAcquire_keeps
        with_reducible assumption

theorem stagePopped_keeps (hz : Keeps P z s) : Keeps P z (stagePopped s) := by
  unfold stagePopped
  extract_lets x1 x2 x3
  have h2 : Keeps P z x2 := by
    unfold x2
    with_reducible assumption
  clear_value x2
  split
  · with_reducible assumption
  · extract_lets x4
    have h4 : Keeps P z x4 := by
      unfold x4
      split
      · with_reducible assumption
      · with_reducible assumption
    clear_value x4
    split
    · with_reducible assumption
    · split
      · with_reducible apply stackEmptied_keeps
        with_reducible assumption
      · with_reducible apply beginPop_keeps
        with_reducible assumption

theorem becomeStuck_keeps {c : FaultCause} (hz : Keeps P z s) : Keeps P z (becomeStuck c s) := by
  unfold becomeStuck
  extract_lets x1 x2 x3 x4 x5
  have h4 : Keeps P z x4 := by
    unfold x4
    with_reducible apply reportFault_keeps
    with_reducible assumption
  clear_value x4
  have h5 : Keeps P z x5 := by
    unfold x5
    split
    · with_reducible apply latch_keeps
      with_reducible assumption
    · with_reducible assumption
  clear_value x5
  split
  · with_reducible apply finishHead_keeps
    with_reducible assumption
  · with_reducible apply finishHead_keeps
    with_reducible assumption
  · with_reducible apply finishHead_keeps
    with_reducible assumption
  · with_reducible assumption

theorem stagePopFailed_keeps (hz : Keeps P z s) : Keeps P z (stagePopFailed s) := by
  unfold stagePopFailed
  split
  · split
    · with_reducible assumption
    · with_reducible apply becomeStuck_keeps
      with_reducible assumption
  · with_reducible assumption

theorem beginUnthread_keeps (hz : Keeps P z s) : Keeps P z (beginUnthread s) := by
  unfold beginUnthread
  extract_lets x1 x2
  with_reducible apply startSeek_keeps
  with_reducible apply dropReadSide_keeps
  with_reducible assumption

theorem popUnthread_keeps (hz : Keeps P z s) : Keeps P z (popUnthread s) := by
  unfold popUnthread
  with_reducible apply unwindStack_keeps
  with_reducible assumption

theorem beginWriteBack_keeps (hz : Keeps P z s) : Keeps P z (beginWriteBack s) := by
  unfold beginWriteBack
  extract_lets x1
  split
  · with_reducible apply popUnthread_keeps
    with_reducible assumption
  · split
    · with_reducible assumption
    · with_reducible assumption

theorem writeMemory_keeps (hz : Keeps P z s) : Keeps P z (writeMemory s) := by
  unfold writeMemory
  extract_lets x1
  with_reducible assumption

theorem writeBackEnds_keeps {ok : Bool} (hz : Keeps P z s) : Keeps P z (writeBackEnds ok s) := by
  unfold writeBackEnds
  extract_lets x1 x2 x3 x4
  have h2 : Keeps P z x2 := by
    unfold x2
    with_reducible assumption
  clear_value x2
  have h4 : Keeps P z x4 := by
    unfold x4
    split
    · with_reducible apply writeMemory_keeps
      with_reducible assumption
    · with_reducible apply reportFault_keeps
      with_reducible apply latch_keeps
      with_reducible assumption
  clear_value x4
  split
  · with_reducible assumption
  · with_reducible apply popUnthread_keeps
    with_reducible assumption

theorem sessionOpenEnds_keeps {ok : Bool} (hz : Keeps P z s) : Keeps P z (sessionOpenEnds ok s) := by
  unfold sessionOpenEnds
  extract_lets x1 x2
  have h2 : Keeps P z x2 := by
    unfold x2
    with_reducible apply reportFault_keeps
    with_reducible apply latch_keeps
    with_reducible assumption
  clear_value x2
  split
  · with_reducible assumption
  · extract_lets x3
    have h3 : Keeps P z x3 := by
      unfold x3
      split
      · with_reducible assumption
      · split
        · with_reducible assumption
        · with_reducible apply permanentFailure_keeps
          with_reducible assumption
    clear_value x3
    split
    · with_reducible apply beginWriteBack_keeps
      with_reducible assumption
    · with_reducible assumption

theorem abortRewind_keeps (hz : Keeps P z s) : Keeps P z (abortRewind s) := by
  unfold abortRewind
  extract_lets x1
  with_reducible apply stopTape_keeps
  with_reducible assumption

theorem decrementEnds_keeps {ok : Bool} (hz : Keeps P z s) : Keeps P z (decrementEnds ok s) := by
  unfold decrementEnds
  extract_lets x1 x2 x3
  have h1 : Keeps P z x1 := by
    unfold x1
    with_reducible apply writeMemory_keeps
    with_reducible assumption
  clear_value x1
  split
  · with_reducible assumption
  · split
    · split
      · with_reducible apply latch_keeps
        with_reducible assumption
      · with_reducible apply pushNext_keeps
        with_reducible assumption
    · with_reducible apply latch_keeps
      with_reducible apply reportFault_keeps
      with_reducible assumption

theorem cleaningRewind_keeps (hz : Keeps P z s) : Keeps P z (cleaningRewind s) := by
  unfold cleaningRewind
  extract_lets x1
  with_reducible apply startSeek_keeps
  with_reducible apply stopTape_keeps
  with_reducible assumption

theorem cleaningRunEnds_keeps (hz : Keeps P z s) : Keeps P z (cleaningRunEnds s) := by
  unfold cleaningRunEnds
  extract_lets x1
  split
  · with_reducible apply cleaningRewind_keeps
    with_reducible assumption
  · with_reducible assumption

theorem abortCleaning_keeps {joins : Bool} (hz : Keeps P z s) : Keeps P z (abortCleaning joins s) := by
  unfold abortCleaning
  extract_lets x1
  split
  · with_reducible assumption
  · split
    · with_reducible assumption
    · with_reducible apply unwindStack_keeps
      with_reducible apply stopAcquire_keeps
      with_reducible assumption
  · with_reducible apply cleaningRewind_keeps
    with_reducible assumption
  · split
    · with_reducible assumption
    · with_reducible assumption
  · with_reducible assumption

theorem freezeBlocks_keeps (hz : Keeps P z s) : Keeps P z (freezeBlocks s) := by
  unfold freezeBlocks
  extract_lets x1 x2 x3 x4
  have h1 : Keeps P z x1 := by
    unfold x1
    with_reducible apply endFlush_keeps
    with_reducible apply writerFault_keeps
    with_reducible assumption
  clear_value x1
  have h3 : Keeps P z x3 := by
    unfold x3
    with_reducible apply dropReadSide_keeps
    with_reducible assumption
  clear_value x3
  with_reducible assumption

theorem endRunning_keeps {r : Reason} {u : FaultUnit} (hz : Keeps P z s) : Keeps P z (endRunning r u s) := by
  unfold endRunning
  extract_lets x1 x2
  have h1 : Keeps P z x1 := by
    unfold x1
    with_reducible apply dropUnplaced_keeps
    with_reducible apply dropLinkOperation_keeps
    with_reducible assumption
  clear_value x1
  split
  · with_reducible apply endHead_keeps
    with_reducible assumption
  · with_reducible assumption

theorem motionFault_keeps {u : FaultUnit} {c : FaultCause} (hz : Keeps P z s) : Keeps P z (motionFault u c s) := by
  unfold motionFault
  extract_lets x1 x2 x3 x4
  have h1 : Keeps P z x1 := by
    unfold x1
    with_reducible apply reportFault_keeps
    with_reducible apply haltTape_keeps
    with_reducible assumption
  clear_value x1
  have h3 : Keeps P z x3 := by
    unfold x3
    with_reducible assumption
  clear_value x3
  have h4 : Keeps P z x4 := by
    unfold x4
    with_reducible apply dropWaitingOperation_keeps
    with_reducible apply freezeBlocks_keeps
    with_reducible assumption
  clear_value x4
  with_reducible apply endRunning_keeps
  with_reducible assumption

theorem bufferFault_keeps {c : FaultCause} (hz : Keeps P z s) : Keeps P z (bufferFault c s) := by
  unfold bufferFault
  extract_lets x1 x2
  have h1 : Keeps P z x1 := by
    unfold x1
    with_reducible apply reportFault_keeps
    with_reducible assumption
  clear_value x1
  have h2 : Keeps P z x2 := by
    unfold x2
    with_reducible apply stopTape_keeps
    with_reducible apply freezeBlocks_keeps
    with_reducible assumption
  clear_value x2
  with_reducible apply endRunning_keeps
  with_reducible assumption

theorem rewindDone_keeps (hz : Keeps P z s) : Keeps P z (rewindDone s) := by
  unfold rewindDone
  extract_lets x1 x2 x3
  have h3 : Keeps P z x3 := by
    unfold x3
    with_reducible apply atBot_keeps
    with_reducible assumption
  clear_value x3
  split
  · with_reducible apply endHead_keeps
    with_reducible assumption
  · with_reducible assumption

theorem resetMotion_keeps (hz : Keeps P z s) : Keeps P z (resetMotion s) := by
  unfold resetMotion
  extract_lets x1 x2
  split
  · with_reducible apply enterPhase_keeps
    with_reducible assumption
  · split
    · with_reducible apply planEod_keeps
      with_reducible assumption
    · split
      · with_reducible assumption
      · with_reducible apply startSeek_keeps
        with_reducible assumption

theorem resetRewound_keeps (hz : Keeps P z s) : Keeps P z (resetRewound s) := by
  unfold resetRewound
  extract_lets x1 x2 x3 x4 x5 x6
  have h4 : Keeps P z x4 := by
    unfold x4
    with_reducible apply atBot_keeps
    with_reducible assumption
  clear_value x4
  split
  · with_reducible apply unwindStack_keeps
    with_reducible assumption
  · split
    · with_reducible apply driveReady_keeps
      with_reducible assumption
    · with_reducible assumption

theorem strandTrail_keeps (hz : Keeps P z s) : Keeps P z (strandTrail s) := by
  unfold strandTrail
  extract_lets x1 x2
  split
  · with_reducible assumption
  · with_reducible assumption

theorem streamingFor_keeps {w : Work} {aim : Option Place} (hz : Keeps P z s) : Keeps P z (streamingFor w aim s) := by
  unfold streamingFor
  extract_lets x1
  split
  · split
    · with_reducible assumption
    · split
      · with_reducible assumption
      · with_reducible apply stopTape_keeps
        with_reducible assumption
  · split
    · with_reducible assumption
    · with_reducible apply stopTape_keeps
      with_reducible assumption
  · split
    · with_reducible assumption
    · with_reducible apply stopTape_keeps
      with_reducible assumption
  · split
    · with_reducible assumption
    · with_reducible apply stopTape_keeps
      with_reducible assumption
  · split
    · with_reducible assumption
    · with_reducible apply stopTape_keeps
      with_reducible assumption
  · with_reducible apply stopTape_keeps
    with_reducible assumption

theorem restedAfter_keeps {w : Work} (hz : Keeps P z s) : Keeps P z (restedAfter w s) := by
  unfold restedAfter
  split
  · with_reducible apply rewindDone_keeps
    with_reducible assumption
  · with_reducible apply arriveFound_keeps
    with_reducible assumption
  · with_reducible apply arriveFound_keeps
    with_reducible assumption
  · split
    · with_reducible apply beginWriteBack_keeps
      with_reducible apply atBot_keeps
      with_reducible assumption
    · with_reducible assumption
  · split
    · with_reducible apply unwindStack_keeps
      with_reducible apply atBot_keeps
      with_reducible assumption
    · with_reducible assumption
  · split
    · with_reducible apply unwindStack_keeps
      with_reducible apply atBot_keeps
      with_reducible assumption
    · with_reducible assumption
  · split
    · with_reducible apply resetMotion_keeps
      with_reducible assumption
    · with_reducible assumption
  · split
    · with_reducible apply beginRecoveryRewind_keeps
      with_reducible assumption
    · with_reducible assumption
  · with_reducible apply resetRewound_keeps
    with_reducible assumption
  · with_reducible assumption

theorem popAtRest_keeps (hz : Keeps P z s) : Keeps P z (popAtRest s) := by
  unfold popAtRest
  split
  · with_reducible apply beginPop_keeps
    with_reducible assumption
  · with_reducible assumption

theorem afterMotion_keeps {aim : Option Place} {r : State × MotionEnd} (h : Keeps P z r.1) : Keeps P z (afterMotion aim r) := by
  unfold afterMotion
  split
  · exact h
  · split
    · exact beginWaiting_keeps h
    · exact streamingFor_keeps h
  · exact beginWaiting_keeps (popAtRest_keeps (restedAfter_keeps h))

theorem phaseEnds_keeps (h : Keeps P z s) : Keeps P z (phaseEnds s) := by
  unfold phaseEnds
  refine afterMotion_keeps (advance_keeps ?_)
  split
  · exact strandTrail_keeps h
  · exact h

theorem rampEnds_keeps {lpos : Nat} (hz : Keeps P z s) : Keeps P z (rampEnds lpos s) := by
  unfold rampEnds
  extract_lets x1
  split
  · with_reducible apply phaseEnds_keeps
    with_reducible assumption
  · split
    · with_reducible apply settleSeek_keeps
      with_reducible assumption
    · with_reducible assumption
  · with_reducible assumption

theorem backhitchEnds_keeps {lpos : Nat} (hz : Keeps P z s) : Keeps P z (backhitchEnds lpos s) := by
  unfold backhitchEnds
  extract_lets x1
  split
  · with_reducible apply phaseEnds_keeps
    with_reducible assumption
  · with_reducible assumption

theorem arriveAtAim_keeps {lpos : Nat} (hz : Keeps P z s) : Keeps P z (arriveAtAim lpos s) := by
  unfold arriveAtAim
  extract_lets x1
  with_reducible apply phaseEnds_keeps
  with_reducible assumption

theorem seekEnds_keeps {lpos : Nat} (h : Keeps P z s) : Keeps P z (seekEnds lpos s) := by
  unfold seekEnds
  split
  · with_reducible apply arriveAtAim_keeps
    with_reducible assumption
  · with_reducible assumption

theorem turnaroundEnds_keeps {lpos : Nat} (hz : Keeps P z s) : Keeps P z (turnaroundEnds lpos s) := by
  unfold turnaroundEnds
  split
  · with_reducible apply arriveAtAim_keeps
    with_reducible assumption
  · with_reducible assumption

theorem retensionEnds_keeps (hz : Keeps P z s) : Keeps P z (retensionEnds s) := by
  unfold retensionEnds
  extract_lets x1
  split
  · with_reducible apply phaseEnds_keeps
    with_reducible assumption
  · with_reducible assumption

theorem restExpires_keeps (hz : Keeps P z s) : Keeps P z (restExpires s) := by
  unfold restExpires
  extract_lets x1
  split
  · with_reducible assumption
  · with_reducible assumption

theorem tensionFails_keeps (hz : Keeps P z s) : Keeps P z (tensionFails s) := by
  unfold tensionFails
  extract_lets x1
  split
  · with_reducible apply motionFault_keeps
    with_reducible assumption
  · with_reducible assumption

theorem operationOverruns_keeps (hz : Keeps P z s) : Keeps P z (operationOverruns s) := by
  unfold operationOverruns
  split
  · with_reducible apply motionFault_keeps
    with_reducible assumption
  · with_reducible assumption

theorem markRead_keeps {wrap : Nat} {lpos : Nat} (hz : Keeps P z s) : Keeps P z (markRead wrap lpos s) := by
  unfold markRead
  extract_lets x1 x2 x3 x4
  have h3 : Keeps P z x3 := by
    unfold x3
    with_reducible assumption
  clear_value x3
  split
  · with_reducible assumption
  · split
    · with_reducible apply phaseEnds_keeps
      with_reducible assumption
    · with_reducible apply settleSeek_keeps
      with_reducible assumption

theorem servoLostOnce_keeps (hz : Keeps P z s) : Keeps P z (servoLostOnce s) := by
  unfold servoLostOnce
  extract_lets x1 x2 x3
  have h2 : Keeps P z x2 := by
    unfold x2
    with_reducible assumption
  have h3 : Keeps P z x3 := by
    unfold x3
    split
    · with_reducible assumption
    · with_reducible apply missingVerdicts_keeps
      with_reducible assumption
  clear_value x3
  with_reducible apply reacquire_keeps
  with_reducible assumption

theorem servoIsLost_keeps (hz : Keeps P z s) : Keeps P z (servoIsLost s) := by
  unfold servoIsLost
  split
  · with_reducible assumption
  · split
    · with_reducible apply stageTimedOut_keeps
      with_reducible assumption
    · split
      · with_reducible apply servoLostOnce_keeps
        with_reducible assumption
      · with_reducible apply motionFault_keeps
        with_reducible assumption

theorem secondOfMotion_keeps (hz : Keeps P z s) : Keeps P z (secondOfMotion s) := by
  unfold secondOfMotion
  split
  · with_reducible apply handSecond_keeps
    with_reducible assumption
  · with_reducible assumption

theorem refuseHead_keeps {r : Reason} (hz : Keeps P z s) : Keeps P z (refuseHead r s) := by
  unfold refuseHead
  with_reducible apply endHead_keeps
  with_reducible assumption

theorem answerReport_keeps {r : Report} (hz : Keeps P z s) : Keeps P z (answerReport r s) := by
  unfold answerReport
  extract_lets x1
  with_reducible apply endHead_keeps
  with_reducible assumption

theorem tested_keeps {own : Option OutcomeBlock} {taken : State → State} (htaken : ∀ x, Keeps P z x → Keeps P z (taken x))
    (h : Keeps P z s) : Keeps P z (tested own taken s) := by
  unfold tested
  split
  · exact endHead_keeps h
  · split
    · exact answerReport_keeps h
    · split
      · exact endHead_keeps h
      · exact htaken _ h

theorem settleMotion_keeps (hz : Keeps P z s) : Keeps P z (settleMotion s) := by
  unfold settleMotion
  split
  · split
    · split
      · with_reducible assumption
      · with_reducible apply stopTape_keeps
        with_reducible assumption
    · split
      · with_reducible assumption
      · with_reducible apply stopTape_keeps
        with_reducible assumption
    · split
      · with_reducible assumption
      · with_reducible apply stopTape_keeps
        with_reducible assumption
    · with_reducible assumption
  · with_reducible assumption

theorem queueFilemarks_keeps (hz : Keeps P z s) : Keeps P z (queueFilemarks s) := by
  unfold queueFilemarks
  extract_lets x1 x2 x3
  split
  · with_reducible assumption
  · with_reducible assumption

theorem appendSet_keeps (hz : Keeps P z s) : Keeps P z (appendSet s) := by
  unfold appendSet
  extract_lets x1 x2
  have h1 : Keeps P z x1 := by
    unfold x1
    with_reducible apply settleMotion_keeps
    with_reducible apply dropReadSide_keeps
    with_reducible apply endSearch_keeps
    with_reducible assumption
  clear_value x1
  with_reducible apply queueFilemarks_keeps
  with_reducible apply acceptWaiting_keeps
  with_reducible assumption

theorem overwriteAt_keeps {d : Nat} {first : Nat} {marks : Nat} {n : Nat} {before : Bool} {entries : List Entry} {payload : List PSym}
    {place : Place} (hz : Keeps P z s) : Keeps P z (overwriteAt d first marks n before entries payload place s) := by
  unfold overwriteAt
  extract_lets x1 x2 x3
  with_reducible apply appendSet_keeps
  with_reducible apply truncateMap_keeps
  with_reducible assumption

theorem setOverwrite_keeps {n : Nat} (hz : Keeps P z s) : Keeps P z (setOverwrite n s) := by
  unfold setOverwrite
  extract_lets x1 x2 x3 x4 x5 x6
  have h1 : Keeps P z x1 := by
    unfold x1
    with_reducible apply dropReading_keeps
    with_reducible assumption
  clear_value x1
  have h4 : Keeps P z x4 := by
    unfold x4
    with_reducible apply dropReadSide_keeps
    with_reducible assumption
  clear_value x4
  split
  · split
    · split
      · with_reducible apply overwriteAt_keeps
        with_reducible assumption
      · with_reducible apply beginSearch_keeps
        with_reducible assumption
    · with_reducible apply beginSearch_keeps
      with_reducible assumption
  · with_reducible apply beginSearch_keeps
    with_reducible assumption

theorem setAppendPoint_keeps (hz : Keeps P z s) : Keeps P z (setAppendPoint s) := by
  unfold setAppendPoint
  split
  · with_reducible apply appendSet_keeps
    with_reducible apply overwriteFromBot_keeps
    with_reducible assumption
  · split
    · with_reducible apply endHead_keeps
      with_reducible apply passOverHead_keeps
      with_reducible assumption
    · split
      · with_reducible apply appendSet_keeps
        with_reducible apply appendAtEod_keeps
        with_reducible assumption
      · with_reducible apply setOverwrite_keeps
        with_reducible assumption

theorem failReread_keeps {d : Slot} (hz : Keeps P z s) : Keeps P z (failReread d s) := by
  unfold failReread
  extract_lets x1
  have h1 : Keeps P z x1 := by
    unfold x1
    with_reducible apply settleMotion_keeps
    with_reducible apply dropReading_keeps
    with_reducible apply endSearch_keeps
    with_reducible apply freeReadSlot_keeps
    with_reducible assumption
  clear_value x1
  with_reducible apply endHead_keeps
  with_reducible apply passOverHead_keeps
  with_reducible assumption

theorem takeReread_keeps (hz : Keeps P z s) : Keeps P z (takeReread s) := by
  unfold takeReread
  extract_lets x1 x2 x3
  have h2 : Keeps P z x2 := by
    unfold x2
    split
    · with_reducible assumption
    · with_reducible apply dropReadSide_keeps
      with_reducible assumption
  clear_value x2
  split
  · with_reducible assumption
  · split
    · with_reducible assumption
    · extract_lets x4 x5 x6
      have h5 : Keeps P z x5 := by
        unfold x5
        with_reducible apply beginCollection_keeps
        with_reducible assumption
      clear_value x5
      split
      · with_reducible apply overwriteAt_keeps
        with_reducible assumption
      · split
        · split
          · with_reducible assumption
          · split
            · with_reducible apply overwriteAt_keeps
              with_reducible assumption
            · with_reducible apply failReread_keeps
              with_reducible assumption
        · split
          · with_reducible assumption
          · split
            · with_reducible apply failReread_keeps
              with_reducible assumption
            · with_reducible assumption

theorem beginAppend_keeps (hz : Keeps P z s) : Keeps P z (beginAppend s) := by
  unfold beginAppend
  split
  · with_reducible apply beginRebuild_keeps
    with_reducible assumption
  · with_reducible apply setAppendPoint_keeps
    with_reducible assumption

theorem takeWrite_keeps (hz : Keeps P z s) : Keeps P z (takeWrite s) := by
  unfold takeWrite
  extract_lets x1
  split
  · with_reducible apply queueFilemarks_keeps
    with_reducible assumption
  · split
    · with_reducible apply setPhase_keeps
      with_reducible assumption
    · with_reducible apply beginAppend_keeps
      with_reducible assumption

theorem servePoint_keeps {q : Nat} {d : Slot} (hz : Keeps P z s) : Keeps P z (servePoint q d s) := by
  unfold servePoint
  extract_lets x1 x2 x3 x4
  have h1 : Keeps P z x1 := by
    unfold x1
    split
    · with_reducible apply stopUnpacking_keeps
      with_reducible assumption
    · with_reducible assumption
  clear_value x1
  have h4 : Keeps P z x4 := by
    unfold x4
    with_reducible assumption
  clear_value x4
  split
  · with_reducible apply startDraining_keeps
    with_reducible assumption
  · with_reducible apply syncWindow_keeps
    with_reducible assumption

theorem takeRead_keeps {own : State → State} (hown : ∀ x, Keeps P z x → Keeps P z (own x)) (h : Keeps P z s) :
    Keeps P z (takeRead own s) := by
  unfold takeRead
  split
  · exact setPhase_keeps (demandFlush_keeps h)
  · exact hown _ (settleDirection_keeps h)

theorem answerIfImmediate_keeps {immediate : Bool} (hz : Keeps P z s) : Keeps P z (answerIfImmediate immediate s) := by
  unfold answerIfImmediate
  split
  · with_reducible apply answerEarly_keeps
    with_reducible assumption
  · with_reducible assumption

theorem readWork_keeps (hz : Keeps P z s) : Keeps P z (readWork s) := by
  unfold readWork
  extract_lets x1 x2 x3
  with_reducible assumption

theorem seekForRead_keeps (hz : Keeps P z s) : Keeps P z (seekForRead s) := by
  unfold seekForRead
  split
  · with_reducible apply beginSearch_keeps
    with_reducible assumption
  · with_reducible assumption

theorem locateOnTape_keeps {t : Nat} (hz : Keeps P z s) : Keeps P z (locateOnTape t s) := by
  unfold locateOnTape
  extract_lets x1 x2 x3 x4 x5
  have h5 : Keeps P z x5 := by
    unfold x5
    with_reducible apply dropReadSide_keeps
    with_reducible assumption
  clear_value x5
  split
  · with_reducible apply beginSearch_keeps
    with_reducible assumption
  · with_reducible apply seekEod_keeps
    with_reducible assumption

theorem locateWork_keeps {t : Nat} (hz : Keeps P z s) : Keeps P z (locateWork t s) := by
  unfold locateWork
  extract_lets x1 x2 x3
  have h3 : Keeps P z x3 := by
    unfold x3
    with_reducible assumption
  clear_value x3
  split
  · with_reducible apply endHead_keeps
    with_reducible apply servePoint_keeps
    with_reducible assumption
  · with_reducible apply locateOnTape_keeps
    with_reducible assumption

theorem spaceOnTape_keeps {kind : SpaceKind} {dir : Dir} {n : Nat} (hz : Keeps P z s) : Keeps P z (spaceOnTape kind dir n s) := by
  unfold spaceOnTape
  extract_lets x1 x2 x3 x4 x5 x6
  have h6 : Keeps P z x6 := by
    unfold x6
    with_reducible apply dropReadSide_keeps
    with_reducible assumption
  clear_value x6
  split
  · with_reducible apply beginSearch_keeps
    with_reducible assumption
  · split
    · with_reducible apply seekEod_keeps
      with_reducible assumption
    · split
      · with_reducible apply seekEod_keeps
        with_reducible assumption
      · split
        · split
          · with_reducible apply spaceOnward_keeps
            with_reducible assumption
          · with_reducible apply beginSearch_keeps
            with_reducible assumption
        · with_reducible apply failSearch_keeps
          with_reducible assumption
    · split
      · with_reducible apply spaceOnward_keeps
        with_reducible assumption
      · with_reducible apply beginSearch_keeps
        with_reducible assumption

theorem spaceWork_keeps {kind : SpaceKind} {dir : Dir} {n : Nat} (hz : Keeps P z s) : Keeps P z (spaceWork kind dir n s) := by
  unfold spaceWork
  extract_lets x1 x2 x3
  have h3 : Keeps P z x3 := by
    unfold x3
    with_reducible assumption
  clear_value x3
  split
  · with_reducible apply endHead_keeps
    with_reducible assumption
  · split
    · with_reducible apply endHead_keeps
      with_reducible assumption
    · split
      · split
        · with_reducible apply endHead_keeps
          with_reducible apply servePoint_keeps
          with_reducible assumption
        · with_reducible apply spaceOnTape_keeps
          with_reducible assumption
      · with_reducible apply spaceOnTape_keeps
        with_reducible assumption

theorem rewindWork_keeps (hz : Keeps P z s) : Keeps P z (rewindWork s) := by
  unfold rewindWork
  extract_lets x1 x2 x3 x4 x5 x6 x7 x8
  have h3 : Keeps P z x3 := by
    unfold x3
    with_reducible assumption
  clear_value x3
  have h4 : Keeps P z x4 := dropPositionSearch_keeps h3
  split
  · with_reducible apply endHead_keeps
    with_reducible assumption
  · with_reducible apply startSeek_keeps
    with_reducible apply dropReadSide_keeps
    with_reducible assumption

theorem tapeWork_keeps {c : MedCmd} (hz : Keeps P z s) : Keeps P z (tapeWork c s) := by
  unfold tapeWork
  split
  · split
    · with_reducible apply beginRebuild_keeps
      with_reducible assumption
    · with_reducible apply spaceWork_keeps
      with_reducible assumption
  · split
    · with_reducible apply locateWork_keeps
      with_reducible assumption
    · with_reducible apply beginRebuild_keeps
      with_reducible assumption
  · with_reducible apply rewindWork_keeps
    with_reducible assumption
  · with_reducible apply beginRebuild_keeps
    with_reducible assumption
  · with_reducible assumption

theorem whenTapeFree_keeps {c : MedCmd} (hz : Keeps P z s) : Keeps P z (whenTapeFree c s) := by
  unfold whenTapeFree
  split
  · with_reducible apply setPhase_keeps
    with_reducible assumption
  · with_reducible apply tapeWork_keeps
    with_reducible assumption

theorem readOwn_keeps {c : MedCmd} (hz : Keeps P z s) : Keeps P z (readOwn c s) := by
  unfold readOwn
  split
  · with_reducible apply readWork_keeps
    with_reducible assumption
  · with_reducible apply whenTapeFree_keeps
    with_reducible apply answerIfImmediate_keeps
    with_reducible assumption
  · with_reducible apply whenTapeFree_keeps
    with_reducible apply answerIfImmediate_keeps
    with_reducible assumption
  · with_reducible apply whenTapeFree_keeps
    with_reducible apply answerIfImmediate_keeps
    with_reducible assumption
  · with_reducible apply whenTapeFree_keeps
    with_reducible assumption
  · with_reducible assumption

theorem afterRebuild_keeps {c : MedCmd} (hz : Keeps P z s) : Keeps P z (afterRebuild c s) := by
  unfold afterRebuild
  split
  · with_reducible apply setAppendPoint_keeps
    with_reducible assumption
  · with_reducible apply setAppendPoint_keeps
    with_reducible assumption
  · with_reducible apply locateWork_keeps
    with_reducible assumption
  · with_reducible apply spaceWork_keeps
    with_reducible assumption
  · with_reducible apply endHead_keeps
    with_reducible assumption

theorem takeFlush_keeps (hz : Keeps P z s) : Keeps P z (takeFlush s) := by
  unfold takeFlush
  split
  · with_reducible apply endHead_keeps
    with_reducible assumption
  · with_reducible apply setPhase_keeps
    with_reducible apply demandFlush_keeps
    with_reducible assumption

theorem discardAndClear_keeps (hz : Keeps P z s) : Keeps P z (discardAndClear s) := by
  unfold discardAndClear
  extract_lets x1 x2
  have h1 : Keeps P z x1 := by
    unfold x1
    with_reducible apply discardWriteSide_keeps
    with_reducible assumption
  clear_value x1
  with_reducible assumption

theorem takeDiscard_keeps (hz : Keeps P z s) : Keeps P z (takeDiscard s) := by
  unfold takeDiscard
  extract_lets x1 x2 x3 x4 x5 x6
  have h2 : Keeps P z x2 := by
    unfold x2
    with_reducible apply discardAndClear_keeps
    with_reducible assumption
  clear_value x2
  have h3 : Keeps P z x3 := by
    unfold x3
    split
    · with_reducible assumption
    · with_reducible apply dropReadSide_keeps
      with_reducible assumption
  clear_value x3
  have h6 : Keeps P z x6 := by
    unfold x6
    with_reducible assumption
  clear_value x6
  split
  · with_reducible apply setPhase_keeps
    with_reducible assumption
  · with_reducible apply endHead_keeps
    with_reducible assumption

theorem takeThread_keeps {tag : Tag} (hz : Keeps P z s) : Keeps P z (takeThread tag s) := by
  unfold takeThread
  split
  · with_reducible apply refuseHead_keeps
    with_reducible assumption
  · with_reducible apply setPhase_keeps
    with_reducible assumption
  · with_reducible apply refuseHead_keeps
    with_reducible assumption
  · with_reducible apply endHead_keeps
    with_reducible assumption
  · with_reducible apply setPhase_keeps
    with_reducible assumption
  · with_reducible apply setPhase_keeps
    with_reducible assumption
  · with_reducible apply setPhase_keeps
    with_reducible assumption
  · with_reducible apply finishHead_keeps
    with_reducible assumption
  · split
    · with_reducible apply refuseHead_keeps
      with_reducible assumption
    · split
      · with_reducible apply refuseHead_keeps
        with_reducible assumption
      · with_reducible apply beginThread_keeps
        with_reducible apply setPhase_keeps
        with_reducible assumption
  · split
    · with_reducible apply refuseHead_keeps
      with_reducible assumption
    · split
      · with_reducible apply refuseHead_keeps
        with_reducible assumption
      · with_reducible apply beginThread_keeps
        with_reducible apply setPhase_keeps
        with_reducible assumption

theorem unthreadFromHead_keeps {kind : MediaKind} {tag : Tag} {force : Bool} (hz : Keeps P z s) : Keeps P z (unthreadFromHead kind tag force s) := by
  unfold unthreadFromHead
  extract_lets x1
  with_reducible apply beginUnthread_keeps
  with_reducible apply setPhase_keeps
  with_reducible assumption

theorem unthreadWhenFree_keeps {kind : MediaKind} {tag : Tag} (hz : Keeps P z s) : Keeps P z (unthreadWhenFree kind tag s) := by
  unfold unthreadWhenFree
  split
  · with_reducible apply setPhase_keeps
    with_reducible assumption
  · with_reducible apply unthreadFromHead_keeps
    with_reducible assumption

theorem takeUnthread_keeps {kind : MediaKind} {tag : Tag} (hz : Keeps P z s) : Keeps P z (takeUnthread kind tag s) := by
  unfold takeUnthread
  split
  · with_reducible apply answerReport_keeps
    with_reducible assumption
  · split
    · with_reducible apply endHead_keeps
      with_reducible assumption
    · split
      · with_reducible apply endHead_keeps
        with_reducible assumption
      · with_reducible apply takeRead_keeps
        · exact fun _ hx => unthreadWhenFree_keeps hx
        · with_reducible assumption

theorem clearIf_keeps {force : Bool} (hz : Keeps P z s) : Keeps P z (clearIf force s) := by
  unfold clearIf
  extract_lets x1
  split
  · with_reducible assumption
  · with_reducible assumption

theorem takeUnthreadCmd_keeps {tag : Tag} {force : Bool} (hz : Keeps P z s) : Keeps P z (takeUnthreadCmd tag force s) := by
  unfold takeUnthreadCmd
  extract_lets x1
  have h1 : Keeps P z x1 := by
    unfold x1
    with_reducible apply discardAndClear_keeps
    with_reducible assumption
  clear_value x1
  split
  · with_reducible apply refuseHead_keeps
    with_reducible assumption
  · with_reducible apply refuseHead_keeps
    with_reducible assumption
  · with_reducible apply abortThread_keeps
    with_reducible apply setPhase_keeps
    with_reducible apply clearIf_keeps
    with_reducible assumption
  · with_reducible apply endHead_keeps
    with_reducible apply clearIf_keeps
    with_reducible assumption
  · with_reducible apply endHead_keeps
    with_reducible apply clearIf_keeps
    with_reducible assumption
  · with_reducible apply endHead_keeps
    with_reducible apply clearIf_keeps
    with_reducible assumption
  · with_reducible apply setPhase_keeps
    with_reducible assumption
  · with_reducible apply setPhase_keeps
    with_reducible assumption
  · with_reducible apply finishHead_keeps
    with_reducible assumption
  · split
    · split
      · with_reducible apply setPhase_keeps
        with_reducible assumption
      · with_reducible apply unthreadFromHead_keeps
        with_reducible assumption
    · with_reducible apply takeUnthread_keeps
      with_reducible assumption

theorem takeEject_keeps {tag : Tag} (hz : Keeps P z s) : Keeps P z (takeEject tag s) := by
  unfold takeEject
  extract_lets x1
  split
  · with_reducible apply refuseHead_keeps
    with_reducible assumption
  · split
    · with_reducible apply refuseHead_keeps
      with_reducible assumption
    · with_reducible apply refuseHead_keeps
      with_reducible assumption
    · with_reducible apply setPhase_keeps
      with_reducible assumption
    · with_reducible apply setPhase_keeps
      with_reducible assumption
    · with_reducible apply setPhase_keeps
      with_reducible assumption
    · with_reducible apply setPhase_keeps
      with_reducible assumption
    · with_reducible apply finishHead_keeps
      with_reducible assumption
    · with_reducible apply takeUnthread_keeps
      with_reducible assumption
    · with_reducible apply beginEject_keeps
      with_reducible apply setPhase_keeps
      with_reducible assumption
    · with_reducible apply beginEject_keeps
      with_reducible apply setPhase_keeps
      with_reducible assumption

theorem reportFirst_keeps {taken : State → State} (htaken : ∀ x, Keeps P z x → Keeps P z (taken x))
    (h : Keeps P z s) : Keeps P z (reportFirst taken s) := by
  unfold reportFirst
  split
  · exact answerReport_keeps h
  · exact htaken _ h

theorem beginCommand_keeps {tag : Tag} {c : MedCmd} (hz : Keeps P z s) : Keeps P z (beginCommand tag c s) := by
  unfold beginCommand
  extract_lets x1 x2
  split
  · with_reducible apply endHead_keeps
    with_reducible assumption
  · split
    · with_reducible apply setPhase_keeps
      with_reducible assumption
    · split
      · with_reducible apply tested_keeps
        · intro s3 h3
          with_reducible apply takeWrite_keeps
          with_reducible assumption
        · with_reducible assumption
      · with_reducible apply tested_keeps
        · intro s4 h4
          with_reducible apply takeWrite_keeps
          with_reducible assumption
        · with_reducible assumption
      · with_reducible apply tested_keeps
        · intro s5 h5
          with_reducible apply takeFlush_keeps
          with_reducible assumption
        · with_reducible assumption
      · with_reducible apply tested_keeps
        · intro s6 h6
          with_reducible apply takeRead_keeps
          · intro s7 h7
            with_reducible apply readOwn_keeps
            with_reducible assumption
          · with_reducible assumption
        · with_reducible assumption
      · with_reducible apply tested_keeps
        · intro s8 h8
          with_reducible apply takeRead_keeps
          · intro s9 h9
            with_reducible apply readOwn_keeps
            with_reducible assumption
          · with_reducible assumption
        · with_reducible assumption
      · with_reducible apply tested_keeps
        · intro s10 h10
          with_reducible apply takeRead_keeps
          · intro s11 h11
            with_reducible apply readOwn_keeps
            with_reducible assumption
          · with_reducible assumption
        · with_reducible assumption
      · with_reducible apply tested_keeps
        · intro s12 h12
          with_reducible apply takeRead_keeps
          · intro s13 h13
            with_reducible apply readOwn_keeps
            with_reducible assumption
          · with_reducible assumption
        · with_reducible assumption
      · with_reducible apply tested_keeps
        · intro s14 h14
          with_reducible apply takeRead_keeps
          · intro s15 h15
            with_reducible apply readOwn_keeps
            with_reducible assumption
          · with_reducible assumption
        · with_reducible assumption
      · with_reducible apply reportFirst_keeps
        · intro s16 h16
          with_reducible apply takeThread_keeps
          with_reducible assumption
        · with_reducible assumption
      · with_reducible apply takeUnthreadCmd_keeps
        with_reducible assumption
      · with_reducible apply reportFirst_keeps
        · intro s17 h17
          with_reducible apply takeEject_keeps
          with_reducible assumption
        · with_reducible assumption
      · split
        · with_reducible apply refuseHead_keeps
          with_reducible assumption
        · with_reducible apply takeDiscard_keeps
          with_reducible assumption

theorem beginHead_keeps (hz : Keeps P z s) : Keeps P z (beginHead s) := by
  unfold beginHead
  split
  · with_reducible apply beginCommand_keeps
    with_reducible assumption
  · with_reducible assumption

theorem abortNow_keeps (hz : Keeps P z s) : Keeps P z (abortNow s) := by
  unfold abortNow
  with_reducible apply endHead_keeps
  with_reducible assumption

theorem abortRebuild_keeps (hz : Keeps P z s) : Keeps P z (abortRebuild s) := by
  unfold abortRebuild
  extract_lets x1 x2 x3
  have h2 : Keeps P z x2 := dropReading_keeps (dropRebuild_keeps (stopForAbort_keeps hz))
  clear_value x2
  with_reducible apply abortNow_keeps
  with_reducible apply passOverHead_keeps
  with_reducible assumption

theorem abortSearch_keeps {p : Nat} (hz : Keeps P z s) : Keeps P z (abortSearch p s) := by
  unfold abortSearch
  extract_lets x1
  with_reducible apply abortNow_keeps
  with_reducible apply dropReading_keeps
  with_reducible apply endSearch_keeps
  with_reducible apply stopForAbort_keeps
  with_reducible assumption

theorem abortRewindCmd_keeps (hz : Keeps P z s) : Keeps P z (abortRewindCmd s) := by
  unfold abortRewindCmd
  extract_lets x1 x2
  with_reducible apply abortNow_keeps
  with_reducible apply stopTape_keeps
  with_reducible assumption

theorem abortRead_keeps (hz : Keeps P z s) : Keeps P z (abortRead s) := by
  unfold abortRead
  extract_lets x1 x2 x3 x4
  have h2 : Keeps P z x2 := by
    unfold x2
    split
    · exact dropReading_keeps (endSearch_keeps (stopForAbort_keeps hz))
    · exact hz
  clear_value x2
  with_reducible apply abortNow_keeps
  with_reducible assumption

theorem abortAppend_keeps (hz : Keeps P z s) : Keeps P z (abortAppend s) :=
  abortNow_keeps (passOverHead_keeps (dropReading_keeps (endSearch_keeps (stopForAbort_keeps hz))))

theorem abortFilemarks_keeps (hz : Keeps P z s) : Keeps P z (abortFilemarks s) := by
  unfold abortFilemarks
  extract_lets x1 x2
  with_reducible apply abortNow_keeps
  with_reducible assumption

theorem abortUnthread_keeps (hz : Keeps P z s) : Keeps P z (abortUnthread s) := by
  unfold abortUnthread
  extract_lets x1 x2 x3
  split
  · with_reducible apply abortNow_keeps
    with_reducible apply abortRewind_keeps
    with_reducible assumption
  · split
    · with_reducible assumption
    · with_reducible assumption

theorem abortWait_keeps (hz : Keeps P z s) : Keeps P z (abortWait s) := by
  unfold abortWait
  with_reducible apply abortNow_keeps
  split
  · with_reducible apply passOverHead_keeps
    with_reducible assumption
  · with_reducible assumption

theorem abortScan_keeps {p : Nat} (hz : Keeps P z s) : Keeps P z (abortScan p s) := by
  unfold abortScan
  split
  · with_reducible apply abortRebuild_keeps
    with_reducible assumption
  · with_reducible apply abortAppend_keeps
    with_reducible assumption
  · with_reducible apply abortAppend_keeps
    with_reducible assumption
  · with_reducible apply abortRead_keeps
    with_reducible assumption
  · with_reducible apply abortSearch_keeps
    with_reducible assumption

theorem abortHead_keeps (hz : Keeps P z s) : Keeps P z (abortHead s) := by
  unfold abortHead
  extract_lets x1 x2 x3
  split
  · with_reducible assumption
  · split
    · with_reducible assumption
    · split
      · with_reducible apply abortNow_keeps
        with_reducible assumption
      · with_reducible apply abortNow_keeps
        with_reducible assumption
      · with_reducible apply abortNow_keeps
        with_reducible apply dropLinkOperation_keeps
        with_reducible assumption
      · with_reducible apply abortWait_keeps
        with_reducible assumption
      · split
        · with_reducible assumption
        · with_reducible apply abortRebuild_keeps
          with_reducible assumption
      · split
        · with_reducible assumption
        · with_reducible apply abortAppend_keeps
          with_reducible assumption
      · split
        · with_reducible assumption
        · with_reducible apply abortAppend_keeps
          with_reducible assumption
      · with_reducible apply abortNow_keeps
        with_reducible apply dropPartial_keeps
        with_reducible assumption
      · with_reducible apply abortNow_keeps
        with_reducible assumption
      · with_reducible apply abortFilemarks_keeps
        with_reducible assumption
      · with_reducible apply abortNow_keeps
        with_reducible assumption
      · with_reducible apply abortNow_keeps
        with_reducible assumption
      · split
        · with_reducible assumption
        · with_reducible apply abortRead_keeps
          with_reducible assumption
      · split
        · with_reducible assumption
        · with_reducible apply abortSearch_keeps
          with_reducible assumption
      · split
        · with_reducible apply abortRewindCmd_keeps
          with_reducible assumption
        · with_reducible apply abortSearch_keeps
          with_reducible assumption
      · with_reducible apply abortThread_keeps
        with_reducible assumption
      · with_reducible apply abortUnthread_keeps
        with_reducible assumption
      · with_reducible assumption

theorem linkAbortHead_keeps (hz : Keeps P z s) : Keeps P z (linkAbortHead s) := by
  unfold linkAbortHead
  extract_lets x1 x2 x3
  have h3 : Keeps P z x3 := by
    unfold x3
    with_reducible assumption
  clear_value x3
  split
  · with_reducible apply abortNow_keeps
    split
    · with_reducible apply stopTape_keeps
      with_reducible apply dropCollecting_keeps
      with_reducible apply endSearch_keeps
      with_reducible assumption
    · with_reducible assumption
  · with_reducible apply abortHead_keeps
    with_reducible assumption

theorem rebuildBoundary_keeps {lpos : Nat} {x : Found} (hz : Keeps P z s) : Keeps P z (rebuildBoundary lpos x s) := by
  unfold rebuildBoundary
  extract_lets x1 x2
  have h1 : Keeps P z x1 := by
    unfold x1
    with_reducible apply rebuildFrameStep_keeps
    with_reducible assumption
  clear_value x1
  split
  · split
    · split
      · with_reducible assumption
      · with_reducible apply abortRebuild_keeps
        with_reducible assumption
    · with_reducible apply abortRebuild_keeps
      with_reducible assumption
  · with_reducible assumption

theorem readBoundary_keeps {lpos : Nat} {x : Found} (hz : Keeps P z s) : Keeps P z (readBoundary lpos x s) := by
  unfold readBoundary
  extract_lets x1 x2 x3
  have h3 : Keeps P z x3 := by
    unfold x3
    with_reducible apply readFrame_keeps
    with_reducible assumption
  clear_value x3
  split
  · split
    · with_reducible apply abortScan_keeps
      with_reducible assumption
    · split
      · with_reducible assumption
      · with_reducible apply abortScan_keeps
        with_reducible assumption
  · with_reducible apply readFrame_keeps
    with_reducible assumption

theorem scanBoundary_keeps {lpos : Nat} {x : Found} (hz : Keeps P z s) : Keeps P z (scanBoundary lpos x s) := by
  unfold scanBoundary
  extract_lets x1 x2
  have h2 : Keeps P z x2 := by
    unfold x2
    with_reducible apply scanFrame_keeps
    with_reducible assumption
  clear_value x2
  split
  · split
    · with_reducible apply abortScan_keeps
      with_reducible assumption
    · split
      · with_reducible assumption
      · with_reducible apply abortScan_keeps
        with_reducible assumption
  · with_reducible apply scanFrame_keeps
    with_reducible assumption

theorem demandAgain_keeps (hz : Keeps P z s) : Keeps P z (demandAgain s) := by
  unfold demandAgain
  split
  · with_reducible apply demandFlush_keeps
    with_reducible assumption
  · with_reducible assumption

theorem settleFlush_keeps (hz : Keeps P z s) : Keeps P z (settleFlush s) := by
  unfold settleFlush
  split
  · with_reducible apply endFlush_keeps
    with_reducible assumption
  · with_reducible assumption

theorem settleWrite_keeps (hz : Keeps P z s) : Keeps P z (settleWrite s) := by
  unfold settleWrite
  with_reducible apply settleFlush_keeps
  with_reducible apply settleDuty_keeps
  with_reducible apply askWriter_keeps
  with_reducible apply checkWrap_keeps
  with_reducible apply writerIdle_keeps
  with_reducible apply startWriter_keeps
  with_reducible apply settleEngine_keeps
  with_reducible assumption

theorem settleRead_keeps (hz : Keeps P z s) : Keeps P z (settleRead s) := by
  unfold settleRead
  with_reducible apply settleMotion_keeps
  with_reducible apply seekForRead_keeps
  with_reducible apply settleReader_keeps
  with_reducible apply rebuildHelpEnded_keeps
  with_reducible apply helpEnded_keeps
  with_reducible assumption

theorem settleLibraryUnthread_keeps (hz : Keeps P z s) : Keeps P z (settleLibraryUnthread s) := by
  unfold settleLibraryUnthread
  split
  · split
    · split
      · with_reducible apply beginUnthread_keeps
        with_reducible assumption
      · with_reducible apply demandAgain_keeps
        with_reducible assumption
    · with_reducible assumption
  · with_reducible assumption

theorem settleReset_keeps (hz : Keeps P z s) : Keeps P z (settleReset s) := by
  unfold settleReset
  extract_lets x1
  split
  · split
    · with_reducible apply startSeek_keeps
      with_reducible assumption
    · with_reducible assumption
  · split
    · with_reducible apply driveReady_keeps
      with_reducible assumption
    · with_reducible assumption
  · with_reducible assumption

theorem settleBlocks_keeps (hz : Keeps P z s) : Keeps P z (settleBlocks s) := by
  unfold settleBlocks
  with_reducible apply settleReset_keeps
  with_reducible apply settleLibraryUnthread_keeps
  with_reducible apply settleDirection_keeps
  with_reducible apply settleRead_keeps
  with_reducible apply settleWrite_keeps
  with_reducible assumption

theorem flushOver_keeps {tag : Tag} {c : MedCmd} (hz : Keeps P z s) : Keeps P z (flushOver tag c s) := by
  unfold flushOver
  split
  · with_reducible apply demandAgain_keeps
    with_reducible assumption
  · split
    · split
      · with_reducible assumption
      · with_reducible apply endHead_keeps
        with_reducible assumption
    · split
      · with_reducible assumption
      · with_reducible apply unthreadFromHead_keeps
        with_reducible assumption
    · split
      · with_reducible assumption
      · with_reducible apply unthreadFromHead_keeps
        with_reducible assumption
    · with_reducible apply readOwn_keeps
      with_reducible apply settleDirection_keeps
      with_reducible assumption

theorem receivedAll_keeps {tag : Tag} {unbuffered : Bool} (hz : Keeps P z s) : Keeps P z (receivedAll tag unbuffered s) := by
  unfold receivedAll
  split
  · with_reducible assumption
  · split
    · with_reducible apply endHead_keeps
      with_reducible assumption
    · split
      · with_reducible assumption
      · with_reducible apply setPhase_keeps
        with_reducible apply demandFlush_keeps
        with_reducible assumption

theorem placedAll_keeps {tag : Tag} {sync : Bool} (hz : Keeps P z s) : Keeps P z (placedAll tag sync s) := by
  unfold placedAll
  split
  · with_reducible assumption
  · split
    · with_reducible apply setPhase_keeps
      with_reducible apply demandFlush_keeps
      with_reducible assumption
    · with_reducible apply endHead_keeps
      with_reducible assumption

theorem tapeFree_keeps {tag : Tag} {c : MedCmd} (hz : Keeps P z s) : Keeps P z (tapeFree tag c s) := by
  unfold tapeFree
  split
  · with_reducible assumption
  · split
    · with_reducible apply beginAppend_keeps
      with_reducible assumption
    · with_reducible apply beginAppend_keeps
      with_reducible assumption
    · with_reducible apply unthreadFromHead_keeps
      with_reducible assumption
    · with_reducible apply unthreadFromHead_keeps
      with_reducible assumption
    · with_reducible apply tapeWork_keeps
      with_reducible assumption

theorem resumeHead_keeps (hz : Keeps P z s) : Keeps P z (resumeHead s) := by
  unfold resumeHead
  split
  · with_reducible assumption
  · split
    · with_reducible assumption
    · with_reducible apply beginCommand_keeps
      with_reducible assumption
    · with_reducible apply flushOver_keeps
      with_reducible assumption
    · with_reducible apply tapeFree_keeps
      with_reducible assumption
    · split
      · with_reducible apply afterRebuild_keeps
        with_reducible assumption
      · with_reducible assumption
    · with_reducible assumption
    · with_reducible apply takeReread_keeps
      with_reducible assumption
    · split
      · with_reducible apply receivedAll_keeps
        with_reducible assumption
      · with_reducible assumption
    · split
      · with_reducible apply endHead_keeps
        with_reducible assumption
      · with_reducible apply demandAgain_keeps
        with_reducible assumption
    · split
      · with_reducible apply placedAll_keeps
        with_reducible assumption
      · with_reducible assumption
    · split
      · with_reducible apply endHead_keeps
        with_reducible assumption
      · with_reducible apply demandAgain_keeps
        with_reducible assumption
    · split
      · with_reducible apply endHead_keeps
        with_reducible assumption
      · with_reducible apply demandAgain_keeps
        with_reducible assumption
    · split
      · with_reducible assumption
      · with_reducible apply advanceRead_keeps
        with_reducible assumption
    · with_reducible assumption
    · with_reducible assumption
    · with_reducible assumption
    · with_reducible assumption
    · with_reducible assumption

theorem settleRound_keeps (hz : Keeps P z s) : Keeps P z (settleRound s) := by
  unfold settleRound
  with_reducible apply resumeHead_keeps
  with_reducible apply settleBlocks_keeps
  with_reducible assumption

theorem progress_keeps (hz : Keeps P z s) : Keeps P z (progress s) := by
  unfold progress
  with_reducible apply settleBlocks_keeps
  with_reducible apply settleRound_keeps
  with_reducible apply settleRound_keeps
  with_reducible apply settleRound_keeps
  with_reducible assumption

theorem finish_keeps (hz : Keeps P z s) : Keeps P z (finish s) := by
  unfold finish
  with_reducible apply sendNotices_keeps
  with_reducible apply progress_keeps
  with_reducible assumption

theorem warnIf_keeps {bad : Bool} (hz : Keeps P z s) : Keeps P z (warnIf bad s) := by
  unfold warnIf
  split
  · with_reducible apply latch_keeps
    with_reducible assumption
  · with_reducible assumption

theorem loadSettings_keeps (h : Keeps P z s) : Keeps P z (loadSettings s) := by
  unfold loadSettings
  extract_lets d limit comp auto_ lib link pay ovr x1 x2 x3
  have hl : limit.1 ≤ 96 := by
    unfold limit loadItem limitOf
    split
    · decide
    · split
      · rename_i n a ha
        split at ha
        · cases ha; assumption
        · cases ha
      · decide
  clear_value limit comp auto_ lib link pay ovr
  have h1 : Keeps P z x1 := by
    unfold x1
    exact warnIf_keeps (warnIf_keeps (warnIf_keeps (warnIf_keeps (warnIf_keeps (warnIf_keeps (warnIf_keeps h))))))
  clear_value x1
  exact { h1 with sound := fun p => { h1.sound p with events := withMask_sound (h1.sound p).events, limit := hl } }

theorem loadRetained_keeps (h : Keeps P z s) : Keeps P z (loadRetained s) := by
  unfold loadRetained
  extract_lets hci lv secs l x1 x2
  have hh : hci.1 ≤ 1000 := by
    unfold hci loadItem hciOf
    split
    · decide
    · split
      · rename_i n a ha
        split at ha
        · cases ha; assumption
        · cases ha
      · decide
  clear_value hci
  have hl : (levelOf hci.1 secs).rank ≤ l.rank := by
    unfold l higherLevel
    split
    · exact Nat.le_refl _
    · rename_i hn
      exact Nat.le_of_not_lt hn
  clear_value l
  have h1 : Keeps P z x1 := warnIf_keeps (warnIf_keeps h)
  clear_value x1
  exact setConditionCap_keeps (k := x1.hcm) (cap := x1.moc.conditionCap) h1 (fun _ => ⟨hh, hl, level_calls l, rfl⟩)

theorem loadHistory_keeps (h : Keeps P z s) : Keeps P z (loadHistory s) := by
  unfold loadHistory
  extract_lets x1 x2 x3 x4
  have h4 : Keeps P z x4 := h
  clear_value x4
  split
  · exact h4
  · exact copyRecord_keeps h4

theorem loadStore_keeps (hz : Keeps P z s) : Keeps P z (loadStore s) := by
  unfold loadStore
  with_reducible apply refreshEffective_keeps
  with_reducible apply loadHistory_keeps
  with_reducible apply loadRetained_keeps
  with_reducible apply loadSettings_keeps
  with_reducible assumption

theorem linkFollows_keeps (hz : Keeps P z s) : Keeps P z (linkFollows s) := by
  unfold linkFollows
  extract_lets x1
  split
  · with_reducible assumption
  · with_reducible assumption

theorem resumeRecovery_keeps (hz : Keeps P z s) : Keeps P z (resumeRecovery s) := by
  unfold resumeRecovery
  extract_lets x1 x2 x3
  have h3 : Keeps P z x3 := by
    unfold x3
    with_reducible assumption
  clear_value x3
  split
  · with_reducible apply beginPush_keeps
    with_reducible assumption
  · with_reducible apply beginPush_keeps
    with_reducible assumption
  · with_reducible apply beginAcquire_keeps
    with_reducible assumption
  · with_reducible apply unwindStack_keeps
    with_reducible assumption

theorem findCartridge_keeps {stages : Nat} (hz : Keeps P z s) : Keeps P z (findCartridge stages s) := by
  unfold findCartridge
  extract_lets x1 x2
  split
  · with_reducible apply driveReady_keeps
    with_reducible assumption
  · split
    · with_reducible apply driveReady_keeps
      with_reducible assumption
    · split
      · with_reducible apply driveReady_keeps
        with_reducible apply seat_keeps
        with_reducible apply recoverCustody_keeps
        with_reducible assumption
      · with_reducible apply resumeRecovery_keeps
        with_reducible assumption

theorem memoryTestEnds_keeps {passed : Bool} {stages : Nat} (h : Keeps P z s) : Keeps P z (memoryTestEnds passed stages s) := by
  unfold memoryTestEnds
  extract_lets x1 x2 x3
  have h3 : Keeps P z x3 := by
    unfold x3
    split
    · exact linkFollows_keeps h
    · exact h
  clear_value x3
  split
  · split
    · exact findCartridge_keeps (loadStore_keeps h3)
    · exact reportFault_keeps h3
  · exact h

theorem clearForReset_keeps (h : Keeps P z s) : Keeps P z (clearForReset s) := by
  unfold clearForReset
  generalize List.filter _ _ = l
  exact { h with sound := fun p => { h.sound p with events := changeEvents_sound (fun _ _ => EventFlags.clear_sound) (h.sound p).events } }

theorem abortQueued_keeps {q : QEntry} {n : Nat} (hz : Keeps P z s) : Keeps P z (abortQueued q n s) := by
  unfold abortQueued
  with_reducible apply dropTag_keeps
  with_reducible apply reply_keeps
  with_reducible assumption

theorem abortQueue_keeps (h : Keeps P z s) : Keeps P z (abortQueue s) := by
  have aborted : ∀ (l : List QEntry) (x : State), Keeps P z x → Keeps P z (l.foldl (fun acc q => abortQueued q 0 acc) x) := by
    intro l
    induction l with
    | nil => exact fun _ h => h
    | cons q l ih => exact fun x hx => ih _ (abortQueued_keeps hx)
  unfold abortQueue
  split
  · exact h
  · extract_lets x1 x2 x3 x4
    have h3 : Keeps P z x3 := endHead_keeps h
    clear_value x3
    refine aborted _ _ ?_
    exact { h3 with sound := fun p => { h3.sound p with queue := Nat.zero_le _ } }

theorem closeRecord_keeps (h : Keeps P z s) : Keeps P z (closeRecord s) := by
  unfold closeRecord
  split
  · refine copyRecord_keeps ?_
    exact { h with sound := fun p => { h.sound p with record := fun l hl => by cases hl } }
  · exact h

theorem endMotion_keeps (hz : Keeps P z s) : Keeps P z (endMotion s) := by
  unfold endMotion
  extract_lets x1 x2 x3
  have h2 : Keeps P z x2 := by
    unfold x2
    with_reducible assumption
  clear_value x2
  split
  · with_reducible assumption
  · split
    · with_reducible apply enterPhase_keeps
      with_reducible assumption
    · with_reducible assumption

theorem resetBlocks_keeps (h : Keeps P z s) : Keeps P z (resetBlocks s) := by
  unfold resetBlocks
  extract_lets x0 x1 x2
  have h1 : Keeps P z x1 := discardWriteSide_keeps h
  clear_value x1
  have h2 : Keeps P z x2 := dropReadSide_keeps h1
  clear_value x2
  obtain ⟨a, b, c, d, e, f⟩ := h2
  refine ⟨a, b, c, d, e, fun p => { f p with governor := ?_ }⟩
  exact (f p).governor

theorem resetThreaded_keeps (hz : Keeps P z s) : Keeps P z (resetThreaded s) := by
  unfold resetThreaded
  with_reducible apply resetMotion_keeps
  split
  · with_reducible assumption
  · with_reducible apply endMotion_keeps
    with_reducible assumption

theorem retryStuck_keeps (hz : Keeps P z s) : Keeps P z (retryStuck s) := by
  unfold retryStuck
  extract_lets x1 x2 x3
  have h2 : Keeps P z x2 := by
    unfold x2
    with_reducible assumption
  clear_value x2
  split
  · with_reducible apply beginEject_keeps
    with_reducible assumption
  · with_reducible apply unwindStack_keeps
    with_reducible assumption

theorem keepUnthread_keeps (hz : Keeps P z s) : Keeps P z (keepUnthread s) := by
  unfold keepUnthread
  extract_lets x1
  with_reducible assumption

theorem resetHandler_keeps (hz : Keeps P z s) : Keeps P z (resetHandler s) := by
  unfold resetHandler
  extract_lets x1 x2
  split
  · with_reducible apply resetThreaded_keeps
    with_reducible assumption
  · with_reducible apply abortThread_keeps
    with_reducible assumption
  · split
    · with_reducible apply resumeRecovery_keeps
      with_reducible assumption
    · split
      · with_reducible apply driveReady_keeps
        with_reducible apply keepUnthread_keeps
        with_reducible assumption
      · with_reducible apply resetThreaded_keeps
        with_reducible assumption
  · with_reducible apply retryStuck_keeps
    with_reducible assumption
  · split
    · with_reducible apply resetMotion_keeps
      with_reducible assumption
    · with_reducible apply abortCleaning_keeps
      with_reducible assumption
  · with_reducible apply driveReady_keeps
    with_reducible assumption
  · with_reducible apply driveReady_keeps
    with_reducible assumption
  · with_reducible apply driveReady_keeps
    with_reducible assumption
  · with_reducible apply driveReady_keeps
    with_reducible assumption
  · with_reducible apply driveReady_keeps
    with_reducible assumption

theorem driveReset_keeps (hz : Keeps P z s) : Keeps P z (driveReset s) := by
  unfold driveReset
  extract_lets x1 x2 x3 x4
  have h1 : Keeps P z x1 := by
    unfold x1
    with_reducible apply closeRecord_keeps
    with_reducible apply abortQueue_keeps
    with_reducible apply clearForReset_keeps
    with_reducible assumption
  clear_value x1
  have h3 : Keeps P z x3 := by
    unfold x3
    with_reducible assumption
  clear_value x3
  split
  · with_reducible assumption
  · split
    · with_reducible assumption
    · with_reducible apply resetHandler_keeps
      with_reducible apply resetBlocks_keeps
      with_reducible apply loadSettings_keeps
      with_reducible assumption

theorem linkReset_keeps (h : Keeps P z s) : Keeps P z (linkReset s) := by
  unfold linkReset
  extract_lets x1 x2 x3 x4 x5 x6
  have h2 : Keeps P z x2 := { h with sound := fun p => { h.sound p with
    queue := Nat.le_trans (List.length_take_le' _ _) (h.sound p).queue } }
  clear_value x2
  have h3 : Keeps P z x3 := by
    unfold x3
    split
    · exact h2
    · exact linkAbortHead_keeps h2
  clear_value x3
  exact { h3 with sound := fun p => { h3.sound p with
    receive := Nat.zero_le _
    room := Nat.le_trans (by simp) (h3.sound p).room
    events := withMask_sound (h3.sound p).events } }

end Sys2Proof.Machine
end

