-- ==== Sys2Proof/Laws/KeepsCommands.lean ====
section
/-! SUPPORT. `Keeps` for the commands and events themselves. One lemma per definition. -/

namespace Sys2Proof.Machine

variable {P : Prop} {z s : State}

theorem noticeQuestion_keeps (hz : Keeps P z s) : Keeps P z (noticeQuestion s) := by
  unfold noticeQuestion
  split
  · split
    · with_reducible apply emit_keeps
      with_reducible assumption
    · with_reducible assumption
  · with_reducible assumption

theorem postQuestion_keeps {p : Port} {tag : Option Tag} (hz : Keeps P z s) : Keeps P z (postQuestion p tag s) := by
  unfold postQuestion
  extract_lets x1 x2 x3
  have h2 : Keeps P z x2 := by
    unfold x2
    with_reducible assumption
  clear_value x2
  split
  · with_reducible apply noticeQuestion_keeps
    with_reducible apply latch_keeps
    with_reducible assumption
  · with_reducible assumption

theorem releaseCustody_keeps {p : Port} (hz : Keeps P z s) : Keeps P z (releaseCustody p s) := by
  unfold releaseCustody
  split
  · with_reducible apply settleQuestion_keeps
    with_reducible assumption
  · with_reducible apply passCustody_keeps
    with_reducible assumption

theorem questionExpires_keeps (hz : Keeps P z s) : Keeps P z (questionExpires s) := by
  unfold questionExpires
  with_reducible apply settleQuestion_keeps
  with_reducible assumption

theorem graceExpires_keeps (hz : Keeps P z s) : Keeps P z (graceExpires s) := by
  unfold graceExpires
  extract_lets x1 x2
  have h2 : Keeps P z x2 := by
    unfold x2
    with_reducible assumption
  clear_value x2
  split
  · with_reducible assumption
  · split
    · split
      · with_reducible apply settleQuestion_keeps
        with_reducible assumption
      · with_reducible apply passCustody_keeps
        with_reducible assumption
    · with_reducible apply passCustody_keeps
      with_reducible assumption

theorem execBufferMemoryTestDone_keeps {passed : Bool} {stages : Nat} {t : State} (hz : Keeps P z s) (ht : execBufferMemoryTestDone passed stages s = .next t) : Keeps P z t := by
  unfold execBufferMemoryTestDone at ht
  obtain rfl := next_inj ht
  with_reducible apply finish_keeps
  with_reducible apply memoryTestEnds_keeps
  with_reducible assumption

theorem comeUp_keeps (hz : Keeps P z s) : Keeps P z (comeUp s) := by
  unfold comeUp
  extract_lets x1
  with_reducible apply noticeQuestion_keeps
  with_reducible assumption

theorem sayHello_keeps {agreed : Nat} (hz : Keeps P z s) : Keeps P z (sayHello agreed s) := by
  unfold sayHello
  extract_lets x1
  with_reducible apply emit_keeps
  with_reducible assumption

theorem frameIn_keeps {take : State → State} (htake : ∀ x, Keeps P z x → Keeps P z (take x)) (h : Keeps P z s) :
    Keeps P z (frameIn take s) := by
  unfold frameIn
  split
  · exact h
  · exact htake _ (Keeps.checked h)
  · exact sendNotices_keeps (comeUp_keeps (grantCredits_keeps (htake _ (sayHello_keeps (Keeps.checked h)))))

theorem execLineSignalAppears_keeps {t : State} (hz : Keeps P z s) (ht : execLineSignalAppears s = .next t) : Keeps P z t := by
  unfold execLineSignalAppears at ht
  obtain rfl := next_inj ht
  extract_lets x1
  split
  · with_reducible assumption
  · with_reducible assumption

theorem execLineSignalLost_keeps {t : State} (hz : Keeps P z s) (ht : execLineSignalLost s = .next t) : Keeps P z t := by
  unfold execLineSignalLost at ht
  obtain rfl := next_inj ht
  extract_lets x1 x2 x3
  have h2 : Keeps P z x2 := by
    unfold x2
    with_reducible apply linkReset_keeps
    with_reducible assumption
  clear_value x2
  split
  · with_reducible assumption
  · with_reducible apply finish_keeps
    with_reducible assumption

theorem execHello_keeps {maxPayload : BitVec 24} {t : State} (h : Keeps P z s) (ht : execHello maxPayload s = .next t) :
    Keeps P z t := by
  unfold execHello at ht
  obtain rfl := next_inj ht
  split
  · exact h
  · exact sendNotices_keeps (comeUp_keeps (grantCredits_keeps (sayHello_keeps (Keeps.checked h))))
  · have h1 : Keeps P z (linkReset { s with dlp.crcRun := 0 }) := linkReset_keeps (Keeps.checked h)
    with_reducible apply finish_keeps
    with_reducible apply comeUp_keeps
    with_reducible apply grantCredits_keeps
    with_reducible apply sayHello_keeps
    generalize linkReset _ = y at h1
    exact h1

theorem execHelloTimeout_keeps {t : State} (hz : Keeps P z s) (ht : execHelloTimeout s = .next t) : Keeps P z t := by
  unfold execHelloTimeout at ht
  obtain rfl := next_inj ht
  split
  · with_reducible apply sendNotices_keeps
    with_reducible apply comeUp_keeps
    with_reducible apply grantCredits_keeps
    with_reducible apply sayHello_keeps
    with_reducible assumption
  · with_reducible assumption

theorem crcRunFull_keeps (h : Keeps P z s) : Keeps P z (crcRunFull s) := by
  unfold crcRunFull
  have h1 := linkReset_keeps (reportFault_keeps (u := .link) (c := .crcRun) (Keeps.checked h))
  exact h1

theorem execBadCheckFrame_keeps {t : State} (h : Keeps P z s) (ht : execBadCheckFrame s = .next t) : Keeps P z t := by
  unfold execBadCheckFrame at ht
  obtain rfl := next_inj ht
  split
  · exact h
  · extract_lets x1
    have h1 : Keeps P z x1 := linkError_keeps h
    clear_value x1
    split
    · rename_i hc
      exact sendNotices_keeps { h1 with sound := fun p => { h1.sound p with checks := hc } }
    · exact finish_keeps (crcRunFull_keeps h1)

theorem rejectFrame_keeps (h : Keeps P z s) : Keeps P z (rejectFrame s) := by
  unfold rejectFrame
  split
  · exact h
  · exact sendNotices_keeps (linkError_keeps (Keeps.checked h))

theorem execFrameRejected_keeps {t : State} (hz : Keeps P z s) (ht : execFrameRejected s = .next t) : Keeps P z t := by
  unfold execFrameRejected at ht
  obtain rfl := next_inj ht
  with_reducible apply rejectFrame_keeps
  with_reducible assumption

theorem placeDataOut_keeps {tag : Tag} {payload : List Byte} (h : Keeps P z s)
    (hr : P → s.dlp.creditsOut + (s.dbf.staging.length + 1) ≤ 32) : Keeps P z (placeDataOut tag payload s) := by
  unfold placeDataOut
  extract_lets n x1 x2 x3 x4
  have h1 : Keeps P z x1 ∧ (P → x1.dlp.creditsOut + (x1.dbf.staging.length + 1) ≤ 32) := by
    unfold x1
    split
    · exact ⟨linkError_keeps h, hr⟩
    · exact ⟨h, hr⟩
  clear_value x1
  refine receiveFrom_keeps { h1.1 with sound := fun p => { h1.1.sound p with room := ?_ } }
  have := h1.2 p
  simpa [x4, x3, x2] using this

theorem takeDataOut_keeps {tag : Tag} {payload : List Byte} (h : Keeps P z s) : Keeps P z (takeDataOut tag payload s) := by
  unfold takeDataOut
  split
  · exact linkError_keeps h
  · rename_i hc
    extract_lets x0 x1
    have h1 : Keeps P z x1 ∧ (P → x1.dlp.creditsOut + (x1.dbf.staging.length + 1) ≤ 32) := by
      refine ⟨{ h with sound := fun p => { h.sound p with room := ?_ } }, fun p => ?_⟩
      all_goals
        have := (h.sound p).room
        simp only [x1]
        omega
    clear_value x1
    split
    · exact placeDataOut_keeps h1.1 h1.2
    · exact grantCredits_keeps h1.1

theorem execDataOut_keeps {tag : Tag} {payload : List Byte} {t : State} (h : Keeps P z s)
    (ht : execDataOut tag payload s = .next t) : Keeps P z t := by
  unfold execDataOut at ht
  obtain rfl := next_inj ht
  split
  · exact finish_keeps (frameIn_keeps (fun _ hx => takeDataOut_keeps hx) h)
  · exact rejectFrame_keeps h

theorem addCredit_keeps {n : Nat} (h : Keeps P z s) : Keeps P z (addCredit n s) := by
  unfold addCredit
  split
  · refine linkError_keeps ?_
    exact { h with sound := fun p => { h.sound p with receive := Nat.le_refl _ } }
  · rename_i hn
    exact { h with sound := fun p => { h.sound p with receive := Nat.le_of_not_lt hn } }

theorem execReceiveCredit_keeps {count : BitVec 16} {t : State} (h : Keeps P z s)
    (ht : execReceiveCredit count s = .next t) : Keeps P z t := by
  unfold execReceiveCredit at ht
  obtain rfl := next_inj ht
  exact sendNotices_keeps (frameIn_keeps (fun _ hx => addCredit_keeps hx) h)

theorem execDataInSend_keeps {t : State} (hz : Keeps P z s) (ht : execDataInSend s = .next t) : Keeps P z t := by
  unfold execDataInSend at ht
  obtain rfl := next_inj ht
  with_reducible apply finish_keeps
  with_reducible apply dataInStep_keeps
  with_reducible assumption

theorem commandIn_keeps {tag : Tag} {barred : State → Bool} {k : State → State} (hk : ∀ x, Keeps P z x → Keeps P z (k x))
    (h : Keeps P z s) : Keeps P z (commandIn tag barred k s) := by
  unfold commandIn
  split
  · exact reply_keeps h
  · split
    · exact reply_keeps h
    · exact hk _ h

theorem immediate_keeps {tag : Tag} {barred : State → Bool} {k : State → State} {t : State}
    (hk : ∀ x, Keeps P z x → Keeps P z (k x)) (h : Keeps P z s) (ht : immediate tag barred k s = .next t) : Keeps P z t := by
  unfold immediate at ht
  obtain rfl := next_inj ht
  exact sendNotices_keeps (frameIn_keeps (fun _ hx => commandIn_keeps hk hx) h)

theorem execUnknownCommand_keeps {tag : Tag} {t : State} (h : Keeps P z s) (ht : execUnknownCommand tag s = .next t) :
    Keeps P z t := immediate_keeps (fun _ hx => reply_keeps hx) h ht

theorem enqueue_keeps {tag : Tag} {c : MedCmd} (h : Keeps P z s) : Keeps P z (enqueue tag c s) := by
  unfold enqueue
  split
  · exact reply_keeps h
  · rename_i hn
    extract_lets x1 x2
    have h2 : Keeps P z x2 := { h with sound := fun p => { h.sound p with queue := by simp [x2]; omega } }
    clear_value x2
    split
    · exact beginHead_keeps h2
    · exact h2

theorem mediumIn_keeps {tag : Tag} {c : MedCmd} {t : State} (h : Keeps P z s) (ht : mediumIn tag c s = .next t) : Keeps P z t := by
  unfold mediumIn at ht
  obtain rfl := next_inj ht
  exact finish_keeps (frameIn_keeps (fun _ hx => commandIn_keeps (fun _ hy => enqueue_keeps hy) hx) h)

theorem execWriteRecords_keeps {tag : Tag} {unbuffered : Bool} {lengths : List Nat} {t : State} (hz : Keeps P z s) (ht : execWriteRecords tag unbuffered lengths s = .next t) : Keeps P z t :=
  mediumIn_keeps hz ht

theorem execWriteFilemarks_keeps {tag : Tag} {sync : Bool} {count : Nat} {t : State} (hz : Keeps P z s) (ht : execWriteFilemarks tag sync count s = .next t) : Keeps P z t :=
  mediumIn_keeps hz ht

theorem execFlush_keeps {tag : Tag} {t : State} (hz : Keeps P z s) (ht : execFlush tag s = .next t) : Keeps P z t :=
  mediumIn_keeps hz ht

theorem execReadRecords_keeps {tag : Tag} {length : Nat} {count : Nat} {t : State} (hz : Keeps P z s) (ht : execReadRecords tag length count s = .next t) : Keeps P z t :=
  mediumIn_keeps hz ht

theorem execSpace_keeps {tag : Tag} {kind : SpaceKind} {dir : Dir} {count : Nat} {imm : Bool} {t : State} (hz : Keeps P z s) (ht : execSpace tag kind dir count imm s = .next t) : Keeps P z t :=
  mediumIn_keeps hz ht

theorem execLocate_keeps {tag : Tag} {target : Nat} {imm : Bool} {t : State} (hz : Keeps P z s) (ht : execLocate tag target imm s = .next t) : Keeps P z t :=
  mediumIn_keeps hz ht

theorem execRewind_keeps {tag : Tag} {imm : Bool} {t : State} (hz : Keeps P z s) (ht : execRewind tag imm s = .next t) : Keeps P z t :=
  mediumIn_keeps hz ht

theorem execRebuildDirectory_keeps {tag : Tag} {t : State} (hz : Keeps P z s) (ht : execRebuildDirectory tag s = .next t) : Keeps P z t :=
  mediumIn_keeps hz ht

theorem execThread_keeps {tag : Tag} {t : State} (hz : Keeps P z s) (ht : execThread tag s = .next t) : Keeps P z t :=
  mediumIn_keeps hz ht

theorem execUnthread_keeps {tag : Tag} {force : Bool} {t : State} (hz : Keeps P z s) (ht : execUnthread tag force s = .next t) : Keeps P z t :=
  mediumIn_keeps hz ht

theorem execEject_keeps {tag : Tag} {t : State} (hz : Keeps P z s) (ht : execEject tag s = .next t) : Keeps P z t :=
  mediumIn_keeps hz ht

theorem execDiscardBuffer_keeps {tag : Tag} {t : State} (hz : Keeps P z s) (ht : execDiscardBuffer tag s = .next t) : Keeps P z t :=
  mediumIn_keeps hz ht

theorem execQueueHeadBegins_keeps {t : State} (hz : Keeps P z s) (ht : execQueueHeadBegins s = .next t) : Keeps P z t := by
  unfold execQueueHeadBegins at ht
  obtain rfl := next_inj ht
  split
  · split
    · with_reducible assumption
    · with_reducible apply finish_keeps
      with_reducible apply beginHead_keeps
      with_reducible assumption
  · with_reducible assumption

theorem execStatus_keeps {tag : Tag} {t : State} (h : Keeps P z s) (ht : execStatus tag s = .next t) : Keeps P z t :=
  immediate_keeps (fun _ hx => reply_keeps hx) h ht

theorem execIdentify_keeps {tag : Tag} {t : State} (h : Keeps P z s) (ht : execIdentify tag s = .next t) : Keeps P z t :=
  immediate_keeps (fun _ hx => reply_keeps hx) h ht

theorem execReadPosition_keeps {tag : Tag} {t : State} (h : Keeps P z s) (ht : execReadPosition tag s = .next t) : Keeps P z t :=
  immediate_keeps (fun _ hx => reply_keeps hx) h ht

theorem execReadCounters_keeps {tag : Tag} {t : State} (h : Keeps P z s) (ht : execReadCounters tag s = .next t) : Keeps P z t :=
  immediate_keeps (fun _ hx => reply_keeps hx) h ht

theorem execReadFaultRecord_keeps {tag : Tag} {t : State} (h : Keeps P z s) (ht : execReadFaultRecord tag s = .next t) :
    Keeps P z t := immediate_keeps (fun _ hx => reply_keeps hx) h ht

theorem execReadAttribute_keeps {tag : Tag} {a : AttrName} {t : State} (h : Keeps P z s)
    (ht : execReadAttribute tag a s = .next t) : Keeps P z t := by
  unfold execReadAttribute at ht
  split at ht
  · refine immediate_keeps (fun x hx => ?_) h ht
    split <;> exact reply_keeps hx
  · exact immediate_keeps (fun x hx => reply_keeps hx) h ht

theorem writeAttr_keeps {tag : Tag} {a : AttrName} {v : Option (List Byte)} (hz : Keeps P z s) : Keeps P z (writeAttr tag a v s) := by
  unfold writeAttr
  extract_lets x1
  split
  · with_reducible apply reply_keeps
    with_reducible assumption
  · split
    · with_reducible apply reply_keeps
      with_reducible assumption
    · split
      · with_reducible apply reply_keeps
        with_reducible assumption
      · with_reducible apply reply_keeps
        with_reducible assumption

theorem execWriteAttribute_keeps {tag : Tag} {a : AttrName} {v : Option (List Byte)} {t : State} (h : Keeps P z s)
    (ht : execWriteAttribute tag a v s = .next t) : Keeps P z t := by
  unfold execWriteAttribute at ht
  split at ht
  · exact immediate_keeps (fun x hx => writeAttr_keeps hx) h ht
  · exact immediate_keeps (fun x hx => reply_keeps hx) h ht

/-- A mask value keeps the Event Set sound. -/
theorem withMaskValue_sound {v : Nat} {es : List EventFlags} (h : EventsSound es) : EventsSound (withMaskValue v es) := by
  refine ⟨by simpa [withMaskValue] using h.1, fun f hf => ?_⟩
  simp only [withMaskValue, List.mem_map] at hf
  obtain ⟨x, hx, rfl⟩ := hf
  exact EventFlags.toMask_sound (h.2 _ (List.fst_mem_of_mem_zipIdx hx))

theorem setSetting_keeps {tag : Tag} {name : SettingName} {v : Nat} (h : Keeps P z s) : Keeps P z (setSetting tag name v s) := by
  have changed : ∀ n x, applySetting name v s = some (n, x) → Keeps P z x := by
    intro n x hx
    unfold applySetting at hx
    split at hx
    · simp only [Option.some.injEq, Prod.mk.injEq] at hx
      obtain ⟨-, rfl⟩ := hx
      exact { h with sound := fun p => { h.sound p with limit := Nat.min_le_right _ _ } }
    all_goals first
      | (obtain ⟨b, -, hb⟩ := Option.map_eq_some_iff.1 hx; simp only [Prod.mk.injEq] at hb; obtain ⟨-, rfl⟩ := hb; exact h)
      | (split at hx
         · simp only [Option.some.injEq, Prod.mk.injEq] at hx
           obtain ⟨-, rfl⟩ := hx
           exact { h with sound := fun p => { h.sound p with events := withMaskValue_sound (h.sound p).events } }
         · cases hx)
      | cases hx
  unfold setSetting
  split
  · rename_i n x hx
    exact reply_keeps (changed n x hx)
  · exact reply_keeps h

theorem execSetSetting_keeps {tag : Tag} {name : SettingName} {v : Nat} {t : State} (h : Keeps P z s)
    (ht : execSetSetting tag name v s = .next t) : Keeps P z t := by
  unfold execSetSetting at ht
  split at ht
  · obtain rfl := next_inj ht
    exact finish_keeps (frameIn_keeps (fun _ hx => commandIn_keeps (fun _ hy => setSetting_keeps hy) hx) h)
  · exact immediate_keeps (fun x hx => setSetting_keeps hx) h ht

theorem execSaveSettings_keeps {tag : Tag} {t : State} (h : Keeps P z s) (ht : execSaveSettings tag s = .next t) : Keeps P z t := by
  refine immediate_keeps (fun x hx => ?_) h ht
  exact beginStoreWrite_keeps hx

theorem setMask_keeps {tag : Tag} {mask unmask : List Nat} (h : Keeps P z s) : Keeps P z (setMask tag mask unmask s) := by
  unfold setMask
  split
  · refine reply_keeps ?_
    exact { h with sound := fun p => { h.sound p with
      events := changeEvents_sound (fun _ => EventFlags.unmask_sound)
        (changeEvents_sound (fun _ => EventFlags.mask_sound) (h.sound p).events) } }
  · exact reply_keeps h

theorem execSetEventMask_keeps {tag : Tag} {mask unmask : List Nat} {t : State} (h : Keeps P z s)
    (ht : execSetEventMask tag mask unmask s = .next t) : Keeps P z t := immediate_keeps (fun _ hx => setMask_keeps hx) h ht

theorem clearNamed_keeps {tag : Tag} {named : Option (List Nat)} (h : Keeps P z s) : Keeps P z (clearNamed tag named s) := by
  unfold clearNamed
  split
  · refine reply_keeps ?_
    exact { h with sound := fun p => { h.sound p with events := changeEvents_sound (fun _ _ => EventFlags.clear_sound) (h.sound p).events } }
  · exact reply_keeps h

theorem execClearEvents_keeps {tag : Tag} {named : Option (List Nat)} {t : State} (h : Keeps P z s)
    (ht : execClearEvents tag named s = .next t) : Keeps P z t := immediate_keeps (fun _ hx => clearNamed_keeps hx) h ht

theorem abortTag_keeps {tag named : Tag} (h : Keeps P z s) : Keeps P z (abortTag tag named s) := by
  unfold abortTag
  split
  · exact reply_keeps h
  · exact reply_keeps h
  · exact reply_keeps h
  · exact abortHead_keeps (reply_keeps h)
  · extract_lets x1 x2
    have h1 : Keeps P z x1 := reply_keeps h
    clear_value x1
    refine abortQueued_keeps ?_
    refine { h1 with sound := fun p => { h1.sound p with queue := ?_ } }
    have h2 := (h1.sound p).queue
    have h3 : ((x1.dlp.queue.drop 1).filter (fun y => decide (y.tag ≠ named))).length ≤ (x1.dlp.queue.drop 1).length :=
      List.length_filter_le _ _
    simp only [List.length_append, List.length_take, List.length_drop] at h3 ⊢
    omega
  · extract_lets x1 x2 x3
    have h1 : Keeps P z x1 := reply_keeps h
    clear_value x1
    exact dropTag_keeps (reply_keeps h1)

theorem execAbort_keeps {tag named : Tag} {t : State} (h : Keeps P z s) (ht : execAbort tag named s = .next t) : Keeps P z t := by
  unfold execAbort at ht
  obtain rfl := next_inj ht
  exact finish_keeps (frameIn_keeps (fun _ hx => commandIn_keeps (fun _ hy => abortTag_keeps hy) hx) h)

theorem linkCustody_keeps {tag : Tag} (hz : Keeps P z s) : Keeps P z (linkCustody tag s) := by
  unfold linkCustody
  extract_lets x1
  split
  · with_reducible apply reply_keeps
    with_reducible assumption
  · with_reducible apply reply_keeps
    with_reducible assumption
  · with_reducible apply reply_keeps
    with_reducible apply passCustody_keeps
    with_reducible assumption
  · with_reducible apply postQuestion_keeps
    with_reducible assumption

theorem execCustodyRequest_keeps {tag : Tag} {t : State} (h : Keeps P z s) (ht : execCustodyRequest tag s = .next t) :
    Keeps P z t := immediate_keeps (fun _ hx => linkCustody_keeps hx) h ht

theorem execCustodyAnswer_keeps {tag : Tag} {grant : Bool} {t : State} (h : Keeps P z s)
    (ht : execCustodyAnswer tag grant s = .next t) : Keeps P z t := by
  refine immediate_keeps (fun x hx => ?_) h ht
  split
  · exact reply_keeps hx
  · exact settleQuestion_keeps (reply_keeps hx)

theorem execRelease_keeps {tag : Tag} {t : State} (h : Keeps P z s) (ht : execRelease tag s = .next t) : Keeps P z t := by
  refine immediate_keeps (fun x hx => ?_) h ht
  split
  · exact reply_keeps hx
  · exact releaseCustody_keeps (reply_keeps hx)

theorem execResetDrive_keeps {tag : Tag} {t : State} (h : Keeps P z s) (ht : execResetDrive tag s = .next t) : Keeps P z t := by
  unfold execResetDrive at ht
  obtain rfl := next_inj ht
  exact finish_keeps (frameIn_keeps (fun _ hx => commandIn_keeps (fun _ hy => driveReset_keeps (reply_keeps hy)) hx) h)

theorem execCustodyQuestionTimeout_keeps {t : State} (hz : Keeps P z s) (ht : execCustodyQuestionTimeout s = .next t) : Keeps P z t := by
  unfold execCustodyQuestionTimeout at ht
  obtain rfl := next_inj ht
  with_reducible apply sendNotices_keeps
  with_reducible apply questionExpires_keeps
  with_reducible assumption

theorem execGraceTimeout_keeps {t : State} (hz : Keeps P z s) (ht : execGraceTimeout s = .next t) : Keeps P z t := by
  unfold execGraceTimeout at ht
  obtain rfl := next_inj ht
  with_reducible apply sendNotices_keeps
  with_reducible apply graceExpires_keeps
  with_reducible assumption

theorem recordIn_keeps {take : State → State} (htake : ∀ x, Keeps P z x → Keeps P z (take x)) (h : Keeps P z s) :
    Keeps P z (recordIn take s) := by
  unfold recordIn
  split
  · exact htake _ h
  · exact h

theorem execPoll_keeps {t : State} (hz : Keeps P z s) (ht : execPoll s = .next t) : Keeps P z t := by
  unfold execPoll at ht
  obtain rfl := next_inj ht
  with_reducible apply recordIn_keeps
  · intro s1 h1
    with_reducible apply answer_keeps
    with_reducible assumption
  · with_reducible assumption

theorem execLibraryRecordIgnored_keeps {t : State} (hz : Keeps P z s) (ht : execLibraryRecordIgnored s = .next t) : Keeps P z t := by
  unfold execLibraryRecordIgnored at ht
  obtain rfl := next_inj ht
  with_reducible assumption

theorem execLibraryUnknownType_keeps {type : Byte} {t : State} (h : Keeps P z s) (ht : execLibraryUnknownType type s = .next t) :
    Keeps P z t := by
  unfold execLibraryUnknownType at ht
  obtain rfl := next_inj ht
  split
  · exact h
  · exact recordIn_keeps (fun _ hx => answerWith_keeps hx) h

theorem execLibraryAnswerSent_keeps {t : State} (hz : Keeps P z s) (ht : execLibraryAnswerSent s = .next t) : Keeps P z t := by
  unfold execLibraryAnswerSent at ht
  obtain rfl := next_inj ht
  split
  · with_reducible apply emit_keeps
    with_reducible assumption
  · split
    · exact hz
    · exact hz
  · exact hz

theorem execLibraryLineBreak_keeps {t : State} (hz : Keeps P z s) (ht : execLibraryLineBreak s = .next t) : Keeps P z t := by
  unfold execLibraryLineBreak at ht
  obtain rfl := next_inj ht
  extract_lets x1 x2 x3 x4 x5
  have h2 : Keeps P z x2 := by
    unfold x2
    with_reducible assumption
  have h4 : Keeps P z x4 := by
    unfold x4
    split
    · with_reducible apply settleQuestion_keeps
      with_reducible assumption
    · with_reducible assumption
  clear_value x4
  split
  · with_reducible assumption
  · with_reducible apply sendNotices_keeps
    with_reducible assumption

theorem execBreakEnds_keeps {t : State} (hz : Keeps P z s) (ht : execBreakEnds s = .next t) : Keeps P z t := by
  unfold execBreakEnds at ht
  obtain rfl := next_inj ht
  extract_lets x1
  split
  · with_reducible assumption
  · with_reducible assumption

theorem orderIn_keeps {take : State → State} (htake : ∀ x, Keeps P z x → Keeps P z (take x)) (h : Keeps P z s) :
    Keeps P z (orderIn take s) := by
  unfold orderIn
  split
  · exact answerWith_keeps h
  · split
    · exact answerWith_keeps h
    · exact htake _ h

theorem libThread_keeps (hz : Keeps P z s) : Keeps P z (libThread s) := by
  unfold libThread
  extract_lets x1
  split
  · with_reducible apply answerWith_keeps
    with_reducible assumption
  · with_reducible assumption
  · with_reducible apply answerWith_keeps
    with_reducible assumption
  · with_reducible apply answerGood_keeps
    with_reducible assumption
  · with_reducible apply answerGood_keeps
    with_reducible assumption
  · with_reducible apply answerWith_keeps
    with_reducible assumption
  · with_reducible apply answerWith_keeps
    with_reducible assumption
  · with_reducible apply answerWith_keeps
    with_reducible assumption
  · split
    · with_reducible apply answerWith_keeps
      with_reducible assumption
    · split
      · with_reducible apply answerWith_keeps
        with_reducible assumption
      · split
        · with_reducible apply answerWith_keeps
          with_reducible assumption
        · with_reducible apply beginThread_keeps
          with_reducible apply answerGood_keeps
          with_reducible assumption
  · split
    · with_reducible apply answerWith_keeps
      with_reducible assumption
    · split
      · with_reducible apply answerWith_keeps
        with_reducible assumption
      · split
        · with_reducible apply answerWith_keeps
          with_reducible assumption
        · with_reducible apply beginThread_keeps
          with_reducible apply answerGood_keeps
          with_reducible assumption

theorem libUnthreadThreaded_keeps {kind : MediaKind} (hz : Keeps P z s) : Keeps P z (libUnthreadThreaded kind s) := by
  unfold libUnthreadThreaded
  extract_lets x1 x2
  have h2 : Keeps P z x2 := by
    unfold x2
    with_reducible apply answerGood_keeps
    with_reducible assumption
  clear_value x2
  split
  · with_reducible apply answerWith_keeps
    with_reducible assumption
  · split
    · with_reducible apply answerWith_keeps
      with_reducible assumption
    · split
      · with_reducible apply demandFlush_keeps
        with_reducible assumption
      · split
        · with_reducible assumption
        · with_reducible apply beginUnthread_keeps
          with_reducible assumption

theorem libUnthread_keeps (hz : Keeps P z s) : Keeps P z (libUnthread s) := by
  unfold libUnthread
  split
  · with_reducible apply answerWith_keeps
    with_reducible assumption
  · with_reducible apply abortCleaning_keeps
    with_reducible apply answerGood_keeps
    with_reducible assumption
  · with_reducible apply abortThread_keeps
    with_reducible apply answerGood_keeps
    with_reducible assumption
  · with_reducible apply answerGood_keeps
    with_reducible assumption
  · with_reducible apply answerGood_keeps
    with_reducible assumption
  · with_reducible apply answerGood_keeps
    with_reducible assumption
  · with_reducible apply answerWith_keeps
    with_reducible assumption
  · with_reducible apply answerWith_keeps
    with_reducible assumption
  · with_reducible apply answerWith_keeps
    with_reducible assumption
  · with_reducible apply libUnthreadThreaded_keeps
    with_reducible assumption

theorem libEject_keeps (hz : Keeps P z s) : Keeps P z (libEject s) := by
  unfold libEject
  extract_lets x1 x2
  split
  · with_reducible apply answerWith_keeps
    with_reducible assumption
  · split
    · with_reducible apply answerWith_keeps
      with_reducible assumption
    · with_reducible apply answerWith_keeps
      with_reducible assumption
    · with_reducible assumption
    · with_reducible apply answerWith_keeps
      with_reducible assumption
    · with_reducible apply answerWith_keeps
      with_reducible assumption
    · with_reducible apply answerWith_keeps
      with_reducible assumption
    · with_reducible apply answerWith_keeps
      with_reducible assumption
    · with_reducible apply libUnthreadThreaded_keeps
      with_reducible assumption
    · with_reducible apply beginEject_keeps
      with_reducible apply answerGood_keeps
      with_reducible assumption
    · with_reducible apply beginEject_keeps
      with_reducible apply answerGood_keeps
      with_reducible assumption

theorem settleLibraryWait_keeps (hz : Keeps P z s) : Keeps P z (settleLibraryWait s) := by
  unfold settleLibraryWait
  extract_lets x1
  split
  · with_reducible assumption
  · split
    · with_reducible apply orderIn_keeps
      · intro s2 h2
        with_reducible apply libThread_keeps
        with_reducible assumption
      · with_reducible assumption
    · with_reducible apply orderIn_keeps
      · intro s3 h3
        with_reducible apply libEject_keeps
        with_reducible assumption
      · with_reducible assumption
    · with_reducible assumption

theorem execLibraryThread_keeps {t : State} (hz : Keeps P z s) (ht : execLibraryThread s = .next t) : Keeps P z t := by
  unfold execLibraryThread at ht
  obtain rfl := next_inj ht
  with_reducible apply finish_keeps
  with_reducible apply recordIn_keeps
  · intro s1 h1
    with_reducible apply orderIn_keeps
    · intro s2 h2
      with_reducible apply libThread_keeps
      with_reducible assumption
    · with_reducible assumption
  · with_reducible assumption

theorem execLibraryUnthread_keeps {t : State} (hz : Keeps P z s) (ht : execLibraryUnthread s = .next t) : Keeps P z t := by
  unfold execLibraryUnthread at ht
  obtain rfl := next_inj ht
  with_reducible apply finish_keeps
  with_reducible apply recordIn_keeps
  · intro s1 h1
    with_reducible apply orderIn_keeps
    · intro s2 h2
      with_reducible apply libUnthread_keeps
      with_reducible assumption
    · with_reducible assumption
  · with_reducible assumption

theorem execLibraryEject_keeps {t : State} (hz : Keeps P z s) (ht : execLibraryEject s = .next t) : Keeps P z t := by
  unfold execLibraryEject at ht
  obtain rfl := next_inj ht
  with_reducible apply finish_keeps
  with_reducible apply recordIn_keeps
  · intro s1 h1
    with_reducible apply orderIn_keeps
    · intro s2 h2
      with_reducible apply libEject_keeps
      with_reducible assumption
    · with_reducible assumption
  · with_reducible assumption

theorem answerFirst_keeps (hz : Keeps P z s) : Keeps P z (answerFirst s) := by
  unfold answerFirst
  extract_lets x1
  with_reducible apply emit_keeps
  with_reducible assumption

theorem execLibraryDriveReset_keeps {t : State} (hz : Keeps P z s) (ht : execLibraryDriveReset s = .next t) : Keeps P z t := by
  unfold execLibraryDriveReset at ht
  obtain rfl := next_inj ht
  with_reducible apply finish_keeps
  with_reducible apply recordIn_keeps
  · intro s1 h1
    split
    · with_reducible apply answerWith_keeps
      with_reducible assumption
    · with_reducible apply driveReset_keeps
      with_reducible apply answerFirst_keeps
      with_reducible assumption
  · with_reducible assumption

theorem libCustody_keeps (hz : Keeps P z s) : Keeps P z (libCustody s) := by
  unfold libCustody
  split
  · with_reducible apply answerGood_keeps
    with_reducible assumption
  · with_reducible apply answerWith_keeps
    with_reducible assumption
  · with_reducible apply answerGood_keeps
    with_reducible apply passCustody_keeps
    with_reducible assumption
  · with_reducible apply answerWith_keeps
    with_reducible apply postQuestion_keeps
    with_reducible assumption

theorem execLibraryCustodyRequest_keeps {t : State} (hz : Keeps P z s) (ht : execLibraryCustodyRequest s = .next t) : Keeps P z t := by
  unfold execLibraryCustodyRequest at ht
  obtain rfl := next_inj ht
  with_reducible apply sendNotices_keeps
  with_reducible apply recordIn_keeps
  · intro s1 h1
    with_reducible apply libCustody_keeps
    with_reducible assumption
  · with_reducible assumption

theorem libCustodyAnswer_keeps {body : Byte} (hz : Keeps P z s) : Keeps P z (libCustodyAnswer body s) := by
  unfold libCustodyAnswer
  split
  · with_reducible apply answerWith_keeps
    with_reducible assumption
  · split
    · with_reducible apply answerWith_keeps
      with_reducible assumption
    · with_reducible apply answerGood_keeps
      with_reducible apply settleQuestion_keeps
      with_reducible assumption

theorem execLibraryCustodyAnswer_keeps {body : Byte} {t : State} (hz : Keeps P z s) (ht : execLibraryCustodyAnswer body s = .next t) : Keeps P z t := by
  unfold execLibraryCustodyAnswer at ht
  obtain rfl := next_inj ht
  with_reducible apply sendNotices_keeps
  with_reducible apply recordIn_keeps
  · intro s1 h1
    with_reducible apply libCustodyAnswer_keeps
    with_reducible assumption
  · with_reducible assumption

theorem libRelease_keeps (hz : Keeps P z s) : Keeps P z (libRelease s) := by
  unfold libRelease
  split
  · with_reducible apply answerWith_keeps
    with_reducible assumption
  · with_reducible apply answerGood_keeps
    with_reducible apply releaseCustody_keeps
    with_reducible assumption

theorem execCustodyRelease_keeps {t : State} (hz : Keeps P z s) (ht : execCustodyRelease s = .next t) : Keeps P z t := by
  unfold execCustodyRelease at ht
  obtain rfl := next_inj ht
  with_reducible apply sendNotices_keeps
  with_reducible apply recordIn_keeps
  · intro s1 h1
    with_reducible apply libRelease_keeps
    with_reducible assumption
  · with_reducible assumption

theorem libPolicy_keeps {body : Byte} (hz : Keeps P z s) : Keeps P z (libPolicy body s) := by
  unfold libPolicy
  extract_lets x1
  split
  · with_reducible apply answerGood_keeps
    with_reducible assumption
  · with_reducible apply answerWith_keeps
    with_reducible assumption

theorem execSetLibraryPolicy_keeps {body : Byte} {t : State} (hz : Keeps P z s) (ht : execSetLibraryPolicy body s = .next t) : Keeps P z t := by
  unfold execSetLibraryPolicy at ht
  obtain rfl := next_inj ht
  with_reducible apply recordIn_keeps
  · intro s1 h1
    with_reducible apply libPolicy_keeps
    with_reducible assumption
  · with_reducible assumption

theorem execCartridgeInserted_keeps {c : Cartridge} {t : State} (hz : Keeps P z s) (ht : execCartridgeInserted c s = .next t) : Keeps P z t := by
  unfold execCartridgeInserted at ht
  obtain rfl := next_inj ht
  split
  · with_reducible apply finish_keeps
    with_reducible apply seat_keeps
    with_reducible assumption
  · with_reducible assumption

theorem execCmReadAttemptDone_keeps {ok : Bool} {t : State} (hz : Keeps P z s) (ht : execCmReadAttemptDone ok s = .next t) : Keeps P z t := by
  unfold execCmReadAttemptDone at ht
  obtain rfl := next_inj ht
  with_reducible apply finish_keeps
  with_reducible apply settleLibraryWait_keeps
  with_reducible apply cmReadEnds_keeps
  with_reducible assumption

theorem execStagePushDone_keeps {t : State} (hz : Keeps P z s) (ht : execStagePushDone s = .next t) : Keeps P z t := by
  unfold execStagePushDone at ht
  obtain rfl := next_inj ht
  with_reducible apply finish_keeps
  with_reducible apply stagePushed_keeps
  with_reducible assumption

theorem execStageAttemptTimeout_keeps {t : State} (hz : Keeps P z s) (ht : execStageAttemptTimeout s = .next t) : Keeps P z t := by
  unfold execStageAttemptTimeout at ht
  obtain rfl := next_inj ht
  with_reducible apply finish_keeps
  with_reducible apply stageTimedOut_keeps
  with_reducible assumption

theorem execStagePopDone_keeps {t : State} (hz : Keeps P z s) (ht : execStagePopDone s = .next t) : Keeps P z t := by
  unfold execStagePopDone at ht
  obtain rfl := next_inj ht
  with_reducible apply finish_keeps
  with_reducible apply stagePopped_keeps
  with_reducible assumption

theorem execStagePopFailed_keeps {t : State} (hz : Keeps P z s) (ht : execStagePopFailed s = .next t) : Keeps P z t := by
  unfold execStagePopFailed at ht
  obtain rfl := next_inj ht
  with_reducible apply finish_keeps
  with_reducible apply stagePopFailed_keeps
  with_reducible assumption

theorem execSessionOpenWriteDone_keeps {ok : Bool} {t : State} (hz : Keeps P z s) (ht : execSessionOpenWriteDone ok s = .next t) : Keeps P z t := by
  unfold execSessionOpenWriteDone at ht
  obtain rfl := next_inj ht
  with_reducible apply finish_keeps
  with_reducible apply sessionOpenEnds_keeps
  with_reducible assumption

theorem execCmWriteBackDone_keeps {ok : Bool} {t : State} (hz : Keeps P z s) (ht : execCmWriteBackDone ok s = .next t) : Keeps P z t := by
  unfold execCmWriteBackDone at ht
  obtain rfl := next_inj ht
  with_reducible apply finish_keeps
  with_reducible apply writeBackEnds_keeps
  with_reducible assumption

theorem execEjectPushDone_keeps {t : State} (hz : Keeps P z s) (ht : execEjectPushDone s = .next t) : Keeps P z t := by
  unfold execEjectPushDone at ht
  obtain rfl := next_inj ht
  split
  · with_reducible apply finish_keeps
    with_reducible apply ejectDone_keeps
    with_reducible assumption
  · with_reducible assumption

theorem execEjectPushTimeout_keeps {t : State} (hz : Keeps P z s) (ht : execEjectPushTimeout s = .next t) : Keeps P z t := by
  unfold execEjectPushTimeout at ht
  obtain rfl := next_inj ht
  split
  · with_reducible apply finish_keeps
    with_reducible apply becomeStuck_keeps
    with_reducible assumption
  · with_reducible assumption

theorem execUseDecrementDone_keeps {ok : Bool} {t : State} (hz : Keeps P z s) (ht : execUseDecrementDone ok s = .next t) : Keeps P z t := by
  unfold execUseDecrementDone at ht
  obtain rfl := next_inj ht
  with_reducible apply finish_keeps
  with_reducible apply decrementEnds_keeps
  with_reducible assumption

theorem execCleaningRunDone_keeps {t : State} (hz : Keeps P z s) (ht : execCleaningRunDone s = .next t) : Keeps P z t := by
  unfold execCleaningRunDone at ht
  obtain rfl := next_inj ht
  with_reducible apply finish_keeps
  with_reducible apply cleaningRunEnds_keeps
  with_reducible assumption

theorem execRestTimerExpiry_keeps {t : State} (hz : Keeps P z s) (ht : execRestTimerExpiry s = .next t) : Keeps P z t := by
  unfold execRestTimerExpiry at ht
  obtain rfl := next_inj ht
  with_reducible apply restExpires_keeps
  with_reducible assumption

theorem execRetensionDone_keeps {t : State} (hz : Keeps P z s) (ht : execRetensionDone s = .next t) : Keeps P z t := by
  unfold execRetensionDone at ht
  obtain rfl := next_inj ht
  with_reducible apply finish_keeps
  with_reducible apply retensionEnds_keeps
  with_reducible assumption

theorem execTensionTimeout_keeps {t : State} (hz : Keeps P z s) (ht : execTensionTimeout s = .next t) : Keeps P z t := by
  unfold execTensionTimeout at ht
  obtain rfl := next_inj ht
  with_reducible apply finish_keeps
  with_reducible apply tensionFails_keeps
  with_reducible assumption

theorem execRampDone_keeps {lpos : Nat} {t : State} (hz : Keeps P z s) (ht : execRampDone lpos s = .next t) : Keeps P z t := by
  unfold execRampDone at ht
  obtain rfl := next_inj ht
  with_reducible apply finish_keeps
  with_reducible apply rampEnds_keeps
  with_reducible assumption

theorem execBackhitchDone_keeps {lpos : Nat} {t : State} (hz : Keeps P z s) (ht : execBackhitchDone lpos s = .next t) : Keeps P z t := by
  unfold execBackhitchDone at ht
  obtain rfl := next_inj ht
  with_reducible apply finish_keeps
  with_reducible apply backhitchEnds_keeps
  with_reducible assumption

theorem execSeekDone_keeps {lpos : Nat} {t : State} (hz : Keeps P z s) (ht : execSeekDone lpos s = .next t) : Keeps P z t := by
  unfold execSeekDone at ht
  obtain rfl := next_inj ht
  with_reducible apply finish_keeps
  with_reducible apply seekEnds_keeps
  with_reducible assumption

theorem execTurnaroundDone_keeps {lpos : Nat} {t : State} (hz : Keeps P z s) (ht : execTurnaroundDone lpos s = .next t) : Keeps P z t := by
  unfold execTurnaroundDone at ht
  obtain rfl := next_inj ht
  with_reducible apply finish_keeps
  with_reducible apply turnaroundEnds_keeps
  with_reducible assumption

theorem execOperationOverrun_keeps {t : State} (hz : Keeps P z s) (ht : execOperationOverrun s = .next t) : Keeps P z t := by
  unfold execOperationOverrun at ht
  obtain rfl := next_inj ht
  with_reducible apply finish_keeps
  with_reducible apply operationOverruns_keeps
  with_reducible assumption

theorem execServoMark_keeps {wrap : Nat} {lpos : Nat} {t : State} (hz : Keeps P z s) (ht : execServoMark wrap lpos s = .next t) : Keeps P z t := by
  unfold execServoMark at ht
  obtain rfl := next_inj ht
  with_reducible apply finish_keeps
  with_reducible apply markRead_keeps
  with_reducible assumption

theorem execServoLost_keeps {t : State} (hz : Keeps P z s) (ht : execServoLost s = .next t) : Keeps P z t := by
  unfold execServoLost at ht
  obtain rfl := next_inj ht
  with_reducible apply finish_keeps
  with_reducible apply servoIsLost_keeps
  with_reducible assumption

theorem execMotionSecond_keeps {t : State} (hz : Keeps P z s) (ht : execMotionSecond s = .next t) : Keeps P z t := by
  unfold execMotionSecond at ht
  obtain rfl := next_inj ht
  with_reducible apply sendNotices_keeps
  with_reducible apply secondOfMotion_keeps
  with_reducible assumption

theorem execPackRecordPart_keeps {agrees : Bool} {t : State} (hz : Keeps P z s) (ht : execPackRecordPart agrees s = .next t) : Keeps P z t := by
  unfold execPackRecordPart at ht
  obtain rfl := next_inj ht
  with_reducible apply finish_keeps
  with_reducible apply packStep_keeps
  with_reducible assumption

theorem framePlace_keeps {slotGood : Bool} (hz : Keeps P z s) : Keeps P z (framePlace slotGood s) := by
  unfold framePlace
  split
  · with_reducible assumption
  · split
    · with_reducible apply bufferFault_keeps
      with_reducible assumption
    · with_reducible apply frameStep_keeps
      with_reducible assumption

theorem execFramePlace_keeps {slotGood : Bool} {t : State} (hz : Keeps P z s) (ht : execFramePlace slotGood s = .next t) : Keeps P z t := by
  unfold execFramePlace at ht
  obtain rfl := next_inj ht
  with_reducible apply finish_keeps
  with_reducible apply framePlace_keeps
  with_reducible assumption

theorem verifyFrame_keeps {found : Found} (hz : Keeps P z s) : Keeps P z (verifyFrame found s) := by
  unfold verifyFrame
  extract_lets x1
  split
  · with_reducible assumption
  · with_reducible apply takeVerdict_keeps
    with_reducible assumption

theorem execVerifyFramePassed_keeps {found : Found} {t : State} (hz : Keeps P z s) (ht : execVerifyFramePassed found s = .next t) : Keeps P z t := by
  unfold execVerifyFramePassed at ht
  obtain rfl := next_inj ht
  with_reducible apply finish_keeps
  with_reducible apply verifyFrame_keeps
  with_reducible assumption

theorem execReadFramePassed_keeps {lpos : Nat} {found : Found} {t : State} (hz : Keeps P z s) (ht : execReadFramePassed lpos found s = .next t) : Keeps P z t := by
  unfold execReadFramePassed at ht
  obtain rfl := next_inj ht
  with_reducible apply finish_keeps
  with_reducible apply readBoundary_keeps
  with_reducible assumption

theorem decodeEnds_keeps {slotGood : Bool} (hz : Keeps P z s) : Keeps P z (decodeEnds slotGood s) := by
  unfold decodeEnds
  split
  · with_reducible assumption
  · split
    · with_reducible apply bufferFault_keeps
      with_reducible assumption
    · with_reducible apply checkDecode_keeps
      with_reducible assumption

theorem execCheckDecodeDone_keeps {slotGood : Bool} {t : State} (hz : Keeps P z s) (ht : execCheckDecodeDone slotGood s = .next t) : Keeps P z t := by
  unfold execCheckDecodeDone at ht
  obtain rfl := next_inj ht
  with_reducible apply finish_keeps
  with_reducible apply decodeEnds_keeps
  with_reducible assumption

theorem execHeaderScanFrame_keeps {lpos : Nat} {found : Found} {t : State} (hz : Keeps P z s) (ht : execHeaderScanFrame lpos found s = .next t) : Keeps P z t := by
  unfold execHeaderScanFrame at ht
  obtain rfl := next_inj ht
  with_reducible apply finish_keeps
  with_reducible apply scanBoundary_keeps
  with_reducible assumption

theorem execRebuildFrame_keeps {lpos : Nat} {found : Found} {t : State} (hz : Keeps P z s) (ht : execRebuildFrame lpos found s = .next t) : Keeps P z t := by
  unfold execRebuildFrame at ht
  obtain rfl := next_inj ht
  with_reducible apply finish_keeps
  with_reducible apply rebuildBoundary_keeps
  with_reducible assumption

/-! ## The resets and the end of a store write, which do more than `Keeps` allows -/

/-- The Power-On values of the registers that soundness speaks of. -/
theorem powerOnValues_sound : SoundOf (List.replicate 25 {}) {} 6 {} 6 6 0 0 0 0 32 0 [] none where
  events := ⟨rfl, fun f hf => by
    rw [List.eq_of_mem_replicate hf]
    exact ⟨by decide, by decide, by decide⟩⟩
  head := ⟨by decide, by decide, by decide, rfl⟩
  governor := ⟨by decide, by decide, fun _ h => (by cases h), by decide, by decide, by decide⟩
  room := by decide
  receive := by decide
  checks := by decide
  limit := by decide
  tag := by decide
  queue := by decide
  record := fun _ h => by cases h

/-- A Power-On leaves a sound drive, whatever state it meets (R182). -/
theorem powerOnState_sound {j : Jumpers} : Sound (powerOnState j s) := powerOnValues_sound

/-- A store write that ends changes what the store holds, and keeps the rest. -/
theorem storeWriteEnds_keeps {ok : Bool} (h : Keeps P z s) :
    ∃ d, Keeps P { z with pst.stored := d } (storeWriteEnds ok s) := by
  unfold storeWriteEnds
  split
  · exact ⟨z.pst.stored, h⟩
  · rename_i w rest _
    extract_lets x0 x1 x2 x4 x3
    have h3 : ∃ d, Keeps P { z with pst.stored := d } x3 := by
      unfold x3
      split
      · exact ⟨s.pst.stored.write w, { h with stored := rfl }⟩
      · exact ⟨z.pst.stored, latch_keeps h⟩
    clear_value x3
    obtain ⟨d, h3⟩ := h3
    refine ⟨d, ?_⟩
    split
    · exact dropTag_keeps (reply_keeps h3)
    · exact h3

end Sys2Proof.Machine
end

