-- ==== Sys2Proof/Laws/State.lean ====
section
/-! SUPPORT. One lemma per field for each update of the state: what the update makes of the field, or that it leaves it. A later proof
cites these and unfolds no record update. -/

namespace Sys2Proof.Machine

variable (s : State)

/-! What is sent is added to what was sent. -/

@[simp] theorem emit_pending (o : Output) : (emit o s).pending = s.pending := rfl
@[simp] theorem emit_out (o : Output) : (emit o s).out = s.out ++ [o] := rfl
@[simp] theorem emit_timeBase (o : Output) : (emit o s).timeBase = s.timeBase := rfl
@[simp] theorem emit_jumpers (o : Output) : (emit o s).jumpers = s.jumpers := rfl
@[simp] theorem emit_dlp (o : Output) : (emit o s).dlp = s.dlp := rfl
@[simp] theorem emit_lbp (o : Output) : (emit o s).lbp = s.lbp := rfl
@[simp] theorem emit_events (o : Output) : (emit o s).events = s.events := rfl
@[simp] theorem emit_dbf (o : Output) : (emit o s).dbf = s.dbf := rfl
@[simp] theorem emit_cpe (o : Output) : (emit o s).cpe = s.cpe := rfl
@[simp] theorem emit_fmc (o : Output) : (emit o s).fmc = s.fmc := rfl
@[simp] theorem emit_wch (o : Output) : (emit o s).wch = s.wch := rfl
@[simp] theorem emit_rch (o : Output) : (emit o s).rch = s.rch := rfl
@[simp] theorem emit_moc (o : Output) : (emit o s).moc = s.moc := rfl
@[simp] theorem emit_sgv (o : Output) : (emit o s).sgv = s.sgv := rfl
@[simp] theorem emit_cah (o : Output) : (emit o s).cah = s.cah := rfl
@[simp] theorem emit_hcm (o : Output) : (emit o s).hcm = s.hcm := rfl
@[simp] theorem emit_pst (o : Output) : (emit o s).pst = s.pst := rfl
@[simp] theorem emit_frg (o : Output) : (emit o s).frg = s.frg := rfl

/-! A latch changes the Event Set alone (R175). -/

@[simp] theorem latch_pending (e : Event) : (latch e s).pending = s.pending := rfl
@[simp] theorem latch_out (e : Event) : (latch e s).out = s.out := rfl
@[simp] theorem latch_timeBase (e : Event) : (latch e s).timeBase = s.timeBase := rfl
@[simp] theorem latch_jumpers (e : Event) : (latch e s).jumpers = s.jumpers := rfl
@[simp] theorem latch_dlp (e : Event) : (latch e s).dlp = s.dlp := rfl
@[simp] theorem latch_lbp (e : Event) : (latch e s).lbp = s.lbp := rfl
@[simp] theorem latch_events (e : Event) : (latch e s).events = changeEvent e.number EventFlags.latch s.events := rfl
@[simp] theorem latch_dbf (e : Event) : (latch e s).dbf = s.dbf := rfl
@[simp] theorem latch_cpe (e : Event) : (latch e s).cpe = s.cpe := rfl
@[simp] theorem latch_fmc (e : Event) : (latch e s).fmc = s.fmc := rfl
@[simp] theorem latch_wch (e : Event) : (latch e s).wch = s.wch := rfl
@[simp] theorem latch_rch (e : Event) : (latch e s).rch = s.rch := rfl
@[simp] theorem latch_moc (e : Event) : (latch e s).moc = s.moc := rfl
@[simp] theorem latch_sgv (e : Event) : (latch e s).sgv = s.sgv := rfl
@[simp] theorem latch_cah (e : Event) : (latch e s).cah = s.cah := rfl
@[simp] theorem latch_hcm (e : Event) : (latch e s).hcm = s.hcm := rfl
@[simp] theorem latch_pst (e : Event) : (latch e s).pst = s.pst := rfl
@[simp] theorem latch_frg (e : Event) : (latch e s).frg = s.frg := rfl

/-! A link error changes its count and the Event Set (R166). -/

@[simp] theorem linkError_pending : (linkError s).pending = s.pending := rfl
@[simp] theorem linkError_out : (linkError s).out = s.out := rfl
@[simp] theorem linkError_timeBase : (linkError s).timeBase = s.timeBase := rfl
@[simp] theorem linkError_jumpers : (linkError s).jumpers = s.jumpers := rfl
@[simp] theorem linkError_dlp : (linkError s).dlp = { s.dlp with linkErrors := s.dlp.linkErrors + 1 } := rfl
@[simp] theorem linkError_lbp : (linkError s).lbp = s.lbp := rfl
@[simp] theorem linkError_events : (linkError s).events = changeEvent Event.linkError.number EventFlags.latch s.events := rfl
@[simp] theorem linkError_dbf : (linkError s).dbf = s.dbf := rfl
@[simp] theorem linkError_cpe : (linkError s).cpe = s.cpe := rfl
@[simp] theorem linkError_fmc : (linkError s).fmc = s.fmc := rfl
@[simp] theorem linkError_wch : (linkError s).wch = s.wch := rfl
@[simp] theorem linkError_rch : (linkError s).rch = s.rch := rfl
@[simp] theorem linkError_moc : (linkError s).moc = s.moc := rfl
@[simp] theorem linkError_sgv : (linkError s).sgv = s.sgv := rfl
@[simp] theorem linkError_cah : (linkError s).cah = s.cah := rfl
@[simp] theorem linkError_hcm : (linkError s).hcm = s.hcm := rfl
@[simp] theorem linkError_pst : (linkError s).pst = s.pst := rfl
@[simp] theorem linkError_frg : (linkError s).frg = s.frg := rfl

/-! A tag that ends changes the outstanding tags alone (R171). -/

@[simp] theorem dropTag_pending (tag : Tag) : (dropTag tag s).pending = s.pending := rfl
@[simp] theorem dropTag_out (tag : Tag) : (dropTag tag s).out = s.out := rfl
@[simp] theorem dropTag_timeBase (tag : Tag) : (dropTag tag s).timeBase = s.timeBase := rfl
@[simp] theorem dropTag_jumpers (tag : Tag) : (dropTag tag s).jumpers = s.jumpers := rfl
@[simp] theorem dropTag_dlp (tag : Tag) : (dropTag tag s).dlp = { s.dlp with tags := s.dlp.tags.filter (· ≠ tag) } := rfl
@[simp] theorem dropTag_lbp (tag : Tag) : (dropTag tag s).lbp = s.lbp := rfl
@[simp] theorem dropTag_events (tag : Tag) : (dropTag tag s).events = s.events := rfl
@[simp] theorem dropTag_dbf (tag : Tag) : (dropTag tag s).dbf = s.dbf := rfl
@[simp] theorem dropTag_cpe (tag : Tag) : (dropTag tag s).cpe = s.cpe := rfl
@[simp] theorem dropTag_fmc (tag : Tag) : (dropTag tag s).fmc = s.fmc := rfl
@[simp] theorem dropTag_wch (tag : Tag) : (dropTag tag s).wch = s.wch := rfl
@[simp] theorem dropTag_rch (tag : Tag) : (dropTag tag s).rch = s.rch := rfl
@[simp] theorem dropTag_moc (tag : Tag) : (dropTag tag s).moc = s.moc := rfl
@[simp] theorem dropTag_sgv (tag : Tag) : (dropTag tag s).sgv = s.sgv := rfl
@[simp] theorem dropTag_cah (tag : Tag) : (dropTag tag s).cah = s.cah := rfl
@[simp] theorem dropTag_hcm (tag : Tag) : (dropTag tag s).hcm = s.hcm := rfl
@[simp] theorem dropTag_pst (tag : Tag) : (dropTag tag s).pst = s.pst := rfl
@[simp] theorem dropTag_frg (tag : Tag) : (dropTag tag s).frg = s.frg := rfl

/-! An answer of the Library Port changes its line and answer alone (R178). -/

@[simp] theorem answer_pending (r : LibRecord) : (answer r s).pending = s.pending := rfl
@[simp] theorem answer_out (r : LibRecord) : (answer r s).out = s.out := rfl
@[simp] theorem answer_timeBase (r : LibRecord) : (answer r s).timeBase = s.timeBase := rfl
@[simp] theorem answer_jumpers (r : LibRecord) : (answer r s).jumpers = s.jumpers := rfl
@[simp] theorem answer_dlp (r : LibRecord) : (answer r s).dlp = s.dlp := rfl
@[simp] theorem answer_lbp (r : LibRecord) : (answer r s).lbp = { s.lbp with line := .answering, answer := some r } := rfl
@[simp] theorem answer_events (r : LibRecord) : (answer r s).events = s.events := rfl
@[simp] theorem answer_dbf (r : LibRecord) : (answer r s).dbf = s.dbf := rfl
@[simp] theorem answer_cpe (r : LibRecord) : (answer r s).cpe = s.cpe := rfl
@[simp] theorem answer_fmc (r : LibRecord) : (answer r s).fmc = s.fmc := rfl
@[simp] theorem answer_wch (r : LibRecord) : (answer r s).wch = s.wch := rfl
@[simp] theorem answer_rch (r : LibRecord) : (answer r s).rch = s.rch := rfl
@[simp] theorem answer_moc (r : LibRecord) : (answer r s).moc = s.moc := rfl
@[simp] theorem answer_sgv (r : LibRecord) : (answer r s).sgv = s.sgv := rfl
@[simp] theorem answer_cah (r : LibRecord) : (answer r s).cah = s.cah := rfl
@[simp] theorem answer_hcm (r : LibRecord) : (answer r s).hcm = s.hcm := rfl
@[simp] theorem answer_pst (r : LibRecord) : (answer r s).pst = s.pst := rfl
@[simp] theorem answer_frg (r : LibRecord) : (answer r s).frg = s.frg := rfl

/-! A store write that begins changes the writes in progress alone (R186). -/

@[simp] theorem beginStoreWrite_pending (w : StoreWrite) : (beginStoreWrite w s).pending = s.pending := rfl
@[simp] theorem beginStoreWrite_out (w : StoreWrite) : (beginStoreWrite w s).out = s.out := rfl
@[simp] theorem beginStoreWrite_timeBase (w : StoreWrite) : (beginStoreWrite w s).timeBase = s.timeBase := rfl
@[simp] theorem beginStoreWrite_jumpers (w : StoreWrite) : (beginStoreWrite w s).jumpers = s.jumpers := rfl
@[simp] theorem beginStoreWrite_dlp (w : StoreWrite) : (beginStoreWrite w s).dlp = s.dlp := rfl
@[simp] theorem beginStoreWrite_lbp (w : StoreWrite) : (beginStoreWrite w s).lbp = s.lbp := rfl
@[simp] theorem beginStoreWrite_events (w : StoreWrite) : (beginStoreWrite w s).events = s.events := rfl
@[simp] theorem beginStoreWrite_dbf (w : StoreWrite) : (beginStoreWrite w s).dbf = s.dbf := rfl
@[simp] theorem beginStoreWrite_cpe (w : StoreWrite) : (beginStoreWrite w s).cpe = s.cpe := rfl
@[simp] theorem beginStoreWrite_fmc (w : StoreWrite) : (beginStoreWrite w s).fmc = s.fmc := rfl
@[simp] theorem beginStoreWrite_wch (w : StoreWrite) : (beginStoreWrite w s).wch = s.wch := rfl
@[simp] theorem beginStoreWrite_rch (w : StoreWrite) : (beginStoreWrite w s).rch = s.rch := rfl
@[simp] theorem beginStoreWrite_moc (w : StoreWrite) : (beginStoreWrite w s).moc = s.moc := rfl
@[simp] theorem beginStoreWrite_sgv (w : StoreWrite) : (beginStoreWrite w s).sgv = s.sgv := rfl
@[simp] theorem beginStoreWrite_cah (w : StoreWrite) : (beginStoreWrite w s).cah = s.cah := rfl
@[simp] theorem beginStoreWrite_hcm (w : StoreWrite) : (beginStoreWrite w s).hcm = s.hcm := rfl
@[simp] theorem beginStoreWrite_pst (w : StoreWrite) : (beginStoreWrite w s).pst = { s.pst with writes := s.pst.writes ++ [w] } := rfl
@[simp] theorem beginStoreWrite_frg (w : StoreWrite) : (beginStoreWrite w s).frg = s.frg := rfl

/-! A phase of the command at the head changes that phase alone. -/

@[simp] theorem setPhase_pending (p : HeadPhase) : (setPhase p s).pending = s.pending := rfl
@[simp] theorem setPhase_out (p : HeadPhase) : (setPhase p s).out = s.out := rfl
@[simp] theorem setPhase_timeBase (p : HeadPhase) : (setPhase p s).timeBase = s.timeBase := rfl
@[simp] theorem setPhase_jumpers (p : HeadPhase) : (setPhase p s).jumpers = s.jumpers := rfl
@[simp] theorem setPhase_dlp (p : HeadPhase) : (setPhase p s).dlp = { s.dlp with run := { s.dlp.run with phase := p } } := rfl
@[simp] theorem setPhase_lbp (p : HeadPhase) : (setPhase p s).lbp = s.lbp := rfl
@[simp] theorem setPhase_events (p : HeadPhase) : (setPhase p s).events = s.events := rfl
@[simp] theorem setPhase_dbf (p : HeadPhase) : (setPhase p s).dbf = s.dbf := rfl
@[simp] theorem setPhase_cpe (p : HeadPhase) : (setPhase p s).cpe = s.cpe := rfl
@[simp] theorem setPhase_fmc (p : HeadPhase) : (setPhase p s).fmc = s.fmc := rfl
@[simp] theorem setPhase_wch (p : HeadPhase) : (setPhase p s).wch = s.wch := rfl
@[simp] theorem setPhase_rch (p : HeadPhase) : (setPhase p s).rch = s.rch := rfl
@[simp] theorem setPhase_moc (p : HeadPhase) : (setPhase p s).moc = s.moc := rfl
@[simp] theorem setPhase_sgv (p : HeadPhase) : (setPhase p s).sgv = s.sgv := rfl
@[simp] theorem setPhase_cah (p : HeadPhase) : (setPhase p s).cah = s.cah := rfl
@[simp] theorem setPhase_hcm (p : HeadPhase) : (setPhase p s).hcm = s.hcm := rfl
@[simp] theorem setPhase_pst (p : HeadPhase) : (setPhase p s).pst = s.pst := rfl
@[simp] theorem setPhase_frg (p : HeadPhase) : (setPhase p s).frg = s.frg := rfl

/-! A frame heard changes CRC Run alone (R166). -/

@[simp] theorem heard_pending : (heard s).pending = s.pending := rfl
@[simp] theorem heard_out : (heard s).out = s.out := rfl
@[simp] theorem heard_timeBase : (heard s).timeBase = s.timeBase := rfl
@[simp] theorem heard_jumpers : (heard s).jumpers = s.jumpers := rfl
@[simp] theorem heard_dlp : (heard s).dlp = { s.dlp with crcRun := 0 } := rfl
@[simp] theorem heard_lbp : (heard s).lbp = s.lbp := rfl
@[simp] theorem heard_events : (heard s).events = s.events := rfl
@[simp] theorem heard_dbf : (heard s).dbf = s.dbf := rfl
@[simp] theorem heard_cpe : (heard s).cpe = s.cpe := rfl
@[simp] theorem heard_fmc : (heard s).fmc = s.fmc := rfl
@[simp] theorem heard_wch : (heard s).wch = s.wch := rfl
@[simp] theorem heard_rch : (heard s).rch = s.rch := rfl
@[simp] theorem heard_moc : (heard s).moc = s.moc := rfl
@[simp] theorem heard_sgv : (heard s).sgv = s.sgv := rfl
@[simp] theorem heard_cah : (heard s).cah = s.cah := rfl
@[simp] theorem heard_hcm : (heard s).hcm = s.hcm := rfl
@[simp] theorem heard_pst : (heard s).pst = s.pst := rfl
@[simp] theorem heard_frg : (heard s).frg = s.frg := rfl

/-! A reply to a command just heard. -/

@[simp] theorem replied_pending (tag : Tag) (r : Reply) : (replied tag r s).pending = s.pending := rfl
@[simp] theorem replied_out (tag : Tag) (r : Reply) : (replied tag r s).out = s.out ++ [.reply tag r] := rfl
@[simp] theorem replied_timeBase (tag : Tag) (r : Reply) : (replied tag r s).timeBase = s.timeBase := rfl
@[simp] theorem replied_jumpers (tag : Tag) (r : Reply) : (replied tag r s).jumpers = s.jumpers := rfl
@[simp] theorem replied_dlp (tag : Tag) (r : Reply) : (replied tag r s).dlp = { s.dlp with crcRun := 0 } := rfl
@[simp] theorem replied_lbp (tag : Tag) (r : Reply) : (replied tag r s).lbp = s.lbp := rfl
@[simp] theorem replied_events (tag : Tag) (r : Reply) : (replied tag r s).events = s.events := rfl
@[simp] theorem replied_dbf (tag : Tag) (r : Reply) : (replied tag r s).dbf = s.dbf := rfl
@[simp] theorem replied_cpe (tag : Tag) (r : Reply) : (replied tag r s).cpe = s.cpe := rfl
@[simp] theorem replied_fmc (tag : Tag) (r : Reply) : (replied tag r s).fmc = s.fmc := rfl
@[simp] theorem replied_wch (tag : Tag) (r : Reply) : (replied tag r s).wch = s.wch := rfl
@[simp] theorem replied_rch (tag : Tag) (r : Reply) : (replied tag r s).rch = s.rch := rfl
@[simp] theorem replied_moc (tag : Tag) (r : Reply) : (replied tag r s).moc = s.moc := rfl
@[simp] theorem replied_sgv (tag : Tag) (r : Reply) : (replied tag r s).sgv = s.sgv := rfl
@[simp] theorem replied_cah (tag : Tag) (r : Reply) : (replied tag r s).cah = s.cah := rfl
@[simp] theorem replied_hcm (tag : Tag) (r : Reply) : (replied tag r s).hcm = s.hcm := rfl
@[simp] theorem replied_pst (tag : Tag) (r : Reply) : (replied tag r s).pst = s.pst := rfl
@[simp] theorem replied_frg (tag : Tag) (r : Reply) : (replied tag r s).frg = s.frg := rfl

/-! A command that joins an empty queue (R171). -/

@[simp] theorem taken_pending (tag : Tag) (c : MedCmd) : (taken tag c s).pending = s.pending := rfl
@[simp] theorem taken_out (tag : Tag) (c : MedCmd) : (taken tag c s).out = s.out := rfl
@[simp] theorem taken_timeBase (tag : Tag) (c : MedCmd) : (taken tag c s).timeBase = s.timeBase := rfl
@[simp] theorem taken_jumpers (tag : Tag) (c : MedCmd) : (taken tag c s).jumpers = s.jumpers := rfl
@[simp] theorem taken_dlp (tag : Tag) (c : MedCmd) : (taken tag c s).dlp = { s.dlp with crcRun := 0, queue := [⟨tag, c⟩], tags := s.dlp.tags ++ [tag] } := rfl
@[simp] theorem taken_lbp (tag : Tag) (c : MedCmd) : (taken tag c s).lbp = s.lbp := rfl
@[simp] theorem taken_events (tag : Tag) (c : MedCmd) : (taken tag c s).events = s.events := rfl
@[simp] theorem taken_dbf (tag : Tag) (c : MedCmd) : (taken tag c s).dbf = s.dbf := rfl
@[simp] theorem taken_cpe (tag : Tag) (c : MedCmd) : (taken tag c s).cpe = s.cpe := rfl
@[simp] theorem taken_fmc (tag : Tag) (c : MedCmd) : (taken tag c s).fmc = s.fmc := rfl
@[simp] theorem taken_wch (tag : Tag) (c : MedCmd) : (taken tag c s).wch = s.wch := rfl
@[simp] theorem taken_rch (tag : Tag) (c : MedCmd) : (taken tag c s).rch = s.rch := rfl
@[simp] theorem taken_moc (tag : Tag) (c : MedCmd) : (taken tag c s).moc = s.moc := rfl
@[simp] theorem taken_sgv (tag : Tag) (c : MedCmd) : (taken tag c s).sgv = s.sgv := rfl
@[simp] theorem taken_cah (tag : Tag) (c : MedCmd) : (taken tag c s).cah = s.cah := rfl
@[simp] theorem taken_hcm (tag : Tag) (c : MedCmd) : (taken tag c s).hcm = s.hcm := rfl
@[simp] theorem taken_pst (tag : Tag) (c : MedCmd) : (taken tag c s).pst = s.pst := rfl
@[simp] theorem taken_frg (tag : Tag) (c : MedCmd) : (taken tag c s).frg = s.frg := rfl

/-! A change of the FILLING slot changes the Data Buffer alone. -/

@[simp] theorem changeFilling_pending (f : Slot → Slot) : (changeFilling f s).pending = s.pending := rfl
@[simp] theorem changeFilling_out (f : Slot → Slot) : (changeFilling f s).out = s.out := rfl
@[simp] theorem changeFilling_timeBase (f : Slot → Slot) : (changeFilling f s).timeBase = s.timeBase := rfl
@[simp] theorem changeFilling_jumpers (f : Slot → Slot) : (changeFilling f s).jumpers = s.jumpers := rfl
@[simp] theorem changeFilling_dlp (f : Slot → Slot) : (changeFilling f s).dlp = s.dlp := rfl
@[simp] theorem changeFilling_lbp (f : Slot → Slot) : (changeFilling f s).lbp = s.lbp := rfl
@[simp] theorem changeFilling_events (f : Slot → Slot) : (changeFilling f s).events = s.events := rfl
@[simp] theorem changeFilling_cpe (f : Slot → Slot) : (changeFilling f s).cpe = s.cpe := rfl
@[simp] theorem changeFilling_fmc (f : Slot → Slot) : (changeFilling f s).fmc = s.fmc := rfl
@[simp] theorem changeFilling_wch (f : Slot → Slot) : (changeFilling f s).wch = s.wch := rfl
@[simp] theorem changeFilling_rch (f : Slot → Slot) : (changeFilling f s).rch = s.rch := rfl
@[simp] theorem changeFilling_moc (f : Slot → Slot) : (changeFilling f s).moc = s.moc := rfl
@[simp] theorem changeFilling_sgv (f : Slot → Slot) : (changeFilling f s).sgv = s.sgv := rfl
@[simp] theorem changeFilling_cah (f : Slot → Slot) : (changeFilling f s).cah = s.cah := rfl
@[simp] theorem changeFilling_hcm (f : Slot → Slot) : (changeFilling f s).hcm = s.hcm := rfl
@[simp] theorem changeFilling_pst (f : Slot → Slot) : (changeFilling f s).pst = s.pst := rfl
@[simp] theorem changeFilling_frg (f : Slot → Slot) : (changeFilling f s).frg = s.frg := rfl

/-! A change of a write slot changes the Data Buffer alone. -/

@[simp] theorem changeWrite_pending (dsn : Nat) (f : Slot → Slot) : (changeWrite dsn f s).pending = s.pending := rfl
@[simp] theorem changeWrite_out (dsn : Nat) (f : Slot → Slot) : (changeWrite dsn f s).out = s.out := rfl
@[simp] theorem changeWrite_timeBase (dsn : Nat) (f : Slot → Slot) : (changeWrite dsn f s).timeBase = s.timeBase := rfl
@[simp] theorem changeWrite_jumpers (dsn : Nat) (f : Slot → Slot) : (changeWrite dsn f s).jumpers = s.jumpers := rfl
@[simp] theorem changeWrite_dlp (dsn : Nat) (f : Slot → Slot) : (changeWrite dsn f s).dlp = s.dlp := rfl
@[simp] theorem changeWrite_lbp (dsn : Nat) (f : Slot → Slot) : (changeWrite dsn f s).lbp = s.lbp := rfl
@[simp] theorem changeWrite_events (dsn : Nat) (f : Slot → Slot) : (changeWrite dsn f s).events = s.events := rfl
@[simp] theorem changeWrite_cpe (dsn : Nat) (f : Slot → Slot) : (changeWrite dsn f s).cpe = s.cpe := rfl
@[simp] theorem changeWrite_fmc (dsn : Nat) (f : Slot → Slot) : (changeWrite dsn f s).fmc = s.fmc := rfl
@[simp] theorem changeWrite_wch (dsn : Nat) (f : Slot → Slot) : (changeWrite dsn f s).wch = s.wch := rfl
@[simp] theorem changeWrite_rch (dsn : Nat) (f : Slot → Slot) : (changeWrite dsn f s).rch = s.rch := rfl
@[simp] theorem changeWrite_moc (dsn : Nat) (f : Slot → Slot) : (changeWrite dsn f s).moc = s.moc := rfl
@[simp] theorem changeWrite_sgv (dsn : Nat) (f : Slot → Slot) : (changeWrite dsn f s).sgv = s.sgv := rfl
@[simp] theorem changeWrite_cah (dsn : Nat) (f : Slot → Slot) : (changeWrite dsn f s).cah = s.cah := rfl
@[simp] theorem changeWrite_hcm (dsn : Nat) (f : Slot → Slot) : (changeWrite dsn f s).hcm = s.hcm := rfl
@[simp] theorem changeWrite_pst (dsn : Nat) (f : Slot → Slot) : (changeWrite dsn f s).pst = s.pst := rfl
@[simp] theorem changeWrite_frg (dsn : Nat) (f : Slot → Slot) : (changeWrite dsn f s).frg = s.frg := rfl

/-! A change of a read slot changes the Data Buffer alone. -/

@[simp] theorem changeRead_pending (dsn : Nat) (f : Slot → Slot) : (changeRead dsn f s).pending = s.pending := rfl
@[simp] theorem changeRead_out (dsn : Nat) (f : Slot → Slot) : (changeRead dsn f s).out = s.out := rfl
@[simp] theorem changeRead_timeBase (dsn : Nat) (f : Slot → Slot) : (changeRead dsn f s).timeBase = s.timeBase := rfl
@[simp] theorem changeRead_jumpers (dsn : Nat) (f : Slot → Slot) : (changeRead dsn f s).jumpers = s.jumpers := rfl
@[simp] theorem changeRead_dlp (dsn : Nat) (f : Slot → Slot) : (changeRead dsn f s).dlp = s.dlp := rfl
@[simp] theorem changeRead_lbp (dsn : Nat) (f : Slot → Slot) : (changeRead dsn f s).lbp = s.lbp := rfl
@[simp] theorem changeRead_events (dsn : Nat) (f : Slot → Slot) : (changeRead dsn f s).events = s.events := rfl
@[simp] theorem changeRead_cpe (dsn : Nat) (f : Slot → Slot) : (changeRead dsn f s).cpe = s.cpe := rfl
@[simp] theorem changeRead_fmc (dsn : Nat) (f : Slot → Slot) : (changeRead dsn f s).fmc = s.fmc := rfl
@[simp] theorem changeRead_wch (dsn : Nat) (f : Slot → Slot) : (changeRead dsn f s).wch = s.wch := rfl
@[simp] theorem changeRead_rch (dsn : Nat) (f : Slot → Slot) : (changeRead dsn f s).rch = s.rch := rfl
@[simp] theorem changeRead_moc (dsn : Nat) (f : Slot → Slot) : (changeRead dsn f s).moc = s.moc := rfl
@[simp] theorem changeRead_sgv (dsn : Nat) (f : Slot → Slot) : (changeRead dsn f s).sgv = s.sgv := rfl
@[simp] theorem changeRead_cah (dsn : Nat) (f : Slot → Slot) : (changeRead dsn f s).cah = s.cah := rfl
@[simp] theorem changeRead_hcm (dsn : Nat) (f : Slot → Slot) : (changeRead dsn f s).hcm = s.hcm := rfl
@[simp] theorem changeRead_pst (dsn : Nat) (f : Slot → Slot) : (changeRead dsn f s).pst = s.pst := rfl
@[simp] theorem changeRead_frg (dsn : Nat) (f : Slot → Slot) : (changeRead dsn f s).frg = s.frg := rfl

/-! A tape that comes to rest changes the Motion Controller alone. -/

@[simp] theorem comeToRest_pending : (comeToRest s).pending = s.pending := rfl
@[simp] theorem comeToRest_out : (comeToRest s).out = s.out := rfl
@[simp] theorem comeToRest_timeBase : (comeToRest s).timeBase = s.timeBase := rfl
@[simp] theorem comeToRest_jumpers : (comeToRest s).jumpers = s.jumpers := rfl
@[simp] theorem comeToRest_dlp : (comeToRest s).dlp = s.dlp := rfl
@[simp] theorem comeToRest_lbp : (comeToRest s).lbp = s.lbp := rfl
@[simp] theorem comeToRest_events : (comeToRest s).events = s.events := rfl
@[simp] theorem comeToRest_dbf : (comeToRest s).dbf = s.dbf := rfl
@[simp] theorem comeToRest_cpe : (comeToRest s).cpe = s.cpe := rfl
@[simp] theorem comeToRest_fmc : (comeToRest s).fmc = s.fmc := rfl
@[simp] theorem comeToRest_wch : (comeToRest s).wch = s.wch := rfl
@[simp] theorem comeToRest_rch : (comeToRest s).rch = s.rch := rfl
@[simp] theorem comeToRest_moc : (comeToRest s).moc = { s.moc with motion := .stopped, step := 0, restTimer := 0 } := rfl
@[simp] theorem comeToRest_sgv : (comeToRest s).sgv = s.sgv := rfl
@[simp] theorem comeToRest_cah : (comeToRest s).cah = s.cah := rfl
@[simp] theorem comeToRest_hcm : (comeToRest s).hcm = s.hcm := rfl
@[simp] theorem comeToRest_pst : (comeToRest s).pst = s.pst := rfl
@[simp] theorem comeToRest_frg : (comeToRest s).frg = s.frg := rfl

/-! A tape at BOT changes the Motion Controller alone. -/

@[simp] theorem atBot_pending : (atBot s).pending = s.pending := rfl
@[simp] theorem atBot_out : (atBot s).out = s.out := rfl
@[simp] theorem atBot_timeBase : (atBot s).timeBase = s.timeBase := rfl
@[simp] theorem atBot_jumpers : (atBot s).jumpers = s.jumpers := rfl
@[simp] theorem atBot_dlp : (atBot s).dlp = s.dlp := rfl
@[simp] theorem atBot_lbp : (atBot s).lbp = s.lbp := rfl
@[simp] theorem atBot_events : (atBot s).events = s.events := rfl
@[simp] theorem atBot_dbf : (atBot s).dbf = s.dbf := rfl
@[simp] theorem atBot_cpe : (atBot s).cpe = s.cpe := rfl
@[simp] theorem atBot_fmc : (atBot s).fmc = s.fmc := rfl
@[simp] theorem atBot_wch : (atBot s).wch = s.wch := rfl
@[simp] theorem atBot_rch : (atBot s).rch = s.rch := rfl
@[simp] theorem atBot_moc : (atBot s).moc = { s.moc with wrap := some 0, restsFor := some botPlace, towardHigh := true } := rfl
@[simp] theorem atBot_sgv : (atBot s).sgv = s.sgv := rfl
@[simp] theorem atBot_cah : (atBot s).cah = s.cah := rfl
@[simp] theorem atBot_hcm : (atBot s).hcm = s.hcm := rfl
@[simp] theorem atBot_pst : (atBot s).pst = s.pst := rfl
@[simp] theorem atBot_frg : (atBot s).frg = s.frg := rfl

/-! A microsecond of the clock (log 1). -/

@[simp] theorem tick_pending : (tick s).pending = s.pending := rfl
@[simp] theorem tick_out : (tick s).out = s.out := rfl
@[simp] theorem tick_timeBase : (tick s).timeBase = s.timeBase + 1 := rfl
@[simp] theorem tick_jumpers : (tick s).jumpers = s.jumpers := rfl
@[simp] theorem tick_lbp : (tick s).lbp = s.lbp := rfl
@[simp] theorem tick_events : (tick s).events = s.events := rfl
@[simp] theorem tick_cpe : (tick s).cpe = s.cpe := rfl
@[simp] theorem tick_fmc : (tick s).fmc = s.fmc := rfl
@[simp] theorem tick_wch : (tick s).wch = s.wch := rfl
@[simp] theorem tick_rch : (tick s).rch = s.rch := rfl
@[simp] theorem tick_sgv : (tick s).sgv = s.sgv := rfl
@[simp] theorem tick_hcm : (tick s).hcm = s.hcm := rfl
@[simp] theorem tick_pst : (tick s).pst = s.pst := rfl
@[simp] theorem tick_frg : (tick s).frg = s.frg := rfl

/-! An evaluation of the governor (R124). -/

@[simp] theorem evaluate_pending (n u c : Nat) : (evaluate n u c s).pending = s.pending := rfl
@[simp] theorem evaluate_out (n u c : Nat) : (evaluate n u c s).out = s.out := rfl
@[simp] theorem evaluate_timeBase (n u c : Nat) : (evaluate n u c s).timeBase = s.timeBase := rfl
@[simp] theorem evaluate_jumpers (n u c : Nat) : (evaluate n u c s).jumpers = s.jumpers := rfl
@[simp] theorem evaluate_dlp (n u c : Nat) : (evaluate n u c s).dlp = { s.dlp with heldTime := 0, linkBytes := 0 } := rfl
@[simp] theorem evaluate_lbp (n u c : Nat) : (evaluate n u c s).lbp = s.lbp := rfl
@[simp] theorem evaluate_events (n u c : Nat) : (evaluate n u c s).events = s.events := rfl
@[simp] theorem evaluate_dbf (n u c : Nat) : (evaluate n u c s).dbf = { s.dbf with starvedTime := 0 } := rfl
@[simp] theorem evaluate_cpe (n u c : Nat) : (evaluate n u c s).cpe = s.cpe := rfl
@[simp] theorem evaluate_fmc (n u c : Nat) : (evaluate n u c s).fmc = s.fmc := rfl
@[simp] theorem evaluate_wch (n u c : Nat) : (evaluate n u c s).wch = s.wch := rfl
@[simp] theorem evaluate_rch (n u c : Nat) : (evaluate n u c s).rch = s.rch := rfl
@[simp] theorem evaluate_moc (n u c : Nat) : (evaluate n u c s).moc = s.moc := rfl
@[simp] theorem evaluate_sgv (n u c : Nat) : (evaluate n u c s).sgv = evaluateWith u c s.dlp.linkBytes (s.timeBase - s.sgv.mark - n) (capOf s) s.timeBase s.sgv := rfl
@[simp] theorem evaluate_cah (n u c : Nat) : (evaluate n u c s).cah = s.cah := rfl
@[simp] theorem evaluate_hcm (n u c : Nat) : (evaluate n u c s).hcm = s.hcm := rfl
@[simp] theorem evaluate_pst (n u c : Nat) : (evaluate n u c s).pst = s.pst := rfl
@[simp] theorem evaluate_frg (n u c : Nat) : (evaluate n u c s).frg = s.frg := rfl

end Sys2Proof.Machine
end

