-- ==== Sys2Proof/Laws/Taken.lean ====
section
/-! SUPPORT. How a frame, a COMMAND and a medium command are taken: the lemmas that bring a command's meaning to the operation it runs
(R165 to R173). -/

namespace Sys2Proof.Machine

/-- A tag that joins and ends leaves the outstanding tags as they were (R171). -/
theorem filter_tags {tag : Tag} {l : List Tag} (h : l.contains tag = false) : (l ++ [tag]).filter (· ≠ tag) = l := by
  have : l.filter (· ≠ tag) = l := by
    apply List.filter_eq_self.2
    intro a ha
    simp only [List.contains_eq_mem, decide_eq_false_iff_not] at h
    simp; rintro rfl; exact h ha
  rw [List.filter_append, this]; simp

/-- A frame on a link that is UP is taken as heard (R166, R167). -/
theorem frameIn_up {s : State} {k} (h : s.dlp.link = .up) : frameIn k s = k (heard s) := by
  unfold frameIn; rw [h]; rfl

/-- A COMMAND taken in READY meets no test that turns it away (R170). -/
theorem commandIn_open {tag : Tag} {s : State} {k} (h : Open tag s) : commandIn tag notServed k (heard s) = k (heard s) := by
  unfold commandIn notServed heard
  simp only [h.2.1, h.2.2]
  simp

/-- An immediate command taken in READY (R170). -/
theorem immediate_open {tag : Tag} {s : State} {k} (h : Open tag s) : immediate tag notServed k s = .next (sendNotices (k (heard s))) := by
  unfold immediate; rw [frameIn_up h.1, commandIn_open h]

/-- A reply on a link that is UP is sent (R167, R173). -/
theorem reply_up {tag : Tag} {r} {s : State} (h : s.dlp.link = .up) : reply tag r s = emit (.reply tag r) s := by
  unfold reply; rw [if_pos h]

/-- A medium command that finds the queue empty begins (R171). -/
theorem mediumIn_free {tag : Tag} {s : State} {c} (h : HeadFree tag s) : mediumIn tag c s = .next (finish (beginCommand tag c (taken tag c s))) := by
  obtain ⟨ho, hq, hr, -⟩ := h
  have hq' : (heard s).dlp.queue = [] := hq
  have e : enqueue tag c (heard s) = beginCommand tag c (taken tag c s) := by
    unfold enqueue
    rw [if_neg (by rw [hq']; decide)]
    dsimp only
    rw [if_pos (by rw [hq']; rfl), hq']
    rfl
  unfold mediumIn
  rw [frameIn_up ho.1, commandIn_open ho, e]

/-- A command that begins and ends at once is answered and leaves the queue empty (R171, R173). -/
theorem endHead_taken {tag : Tag} {s : State} {c} {o} (h : HeadFree tag s) : endHead o (taken tag c s) = answered tag c o s := by
  obtain ⟨ho, hq, hr, -⟩ := h
  have hf := filter_tags ho.2.1
  unfold endHead finishHead
  have e1 : (taken tag c s).dlp.queue = [⟨tag, c⟩] := rfl
  have e2 : (taken tag c s).dlp.run = {} := hr
  have e3 : (taken tag c s).dlp.link = .up := ho.1
  simp only [e1, e2]
  have hfig : headFigure c (taken tag c s) = 0 := by unfold headFigure; rw [e2]; cases c <;> rfl
  rw [hfig]
  simp only [Bool.false_eq_true, if_false]
  rw [reply_up e3]
  unfold dropTag emit
  have hres : resultsOf c 0 (taken tag c s) = resultsOf c 0 s := by cases c <;> rfl
  have hf' : List.filter (fun x => decide ¬x = tag) (s.dlp.tags ++ [tag]) = s.dlp.tags := hf
  simp only [taken, heard, answered, replied, emit] at hres ⊢
  rw [hres]
  cases s with
  | mk a b cc d dlp => cases dlp; simp_all
end Sys2Proof.Machine
end

