-- ==== Sys2Proof/WellFormed.lean ====
section
/-! DEFINITION. When a command or event is one that the physical world and the framing can bring: the ranges of what it carries. The
ranges that the drive itself tests, with an answer of its own, are no part of it (R79, R82, R99, R176, R185). -/

namespace Sys2Proof

/-- The address positions give 0..15 (R182). -/
def Jumpers.ok (j : Jumpers) : Bool := decide (j.address ≤ 15)

/-- A name of a user slot is 0..15 (R132). -/
def AttrName.ok : AttrName → Bool
  | .user n => decide (n ≤ 15)
  | _ => true

/-- A value of Write Attribute has 1 to 64 bytes (R132). -/
def valueOk : Option (List Byte) → Bool
  | none => true
  | some v => decide (1 ≤ v.length) && decide (v.length ≤ 64)

/-- A wrap is 0..95 (R8). -/
def wrapOk (w : Nat) : Bool := decide (w ≤ 95)

/-- An LPOS is 0..980,000 mm, held in hundredths of a millimetre (R8). -/
def lposOk (l : Nat) : Bool := decide (l ≤ 98000000)

/-- A Cartridge Memory holds attributes within their ranges (R132), and its Tape Directory and EOD position name wraps and an LPOS of
R8 (R12, R13). -/
def CmImage.ok (i : CmImage) : Bool :=
  decide (1 ≤ i.level) && decide (i.level ≤ 15) && decide (i.serial.length = 12) && decide (i.loadCount ≤ 16777215)
    && decide (i.history.length ≤ 4) && decide (i.remainingUses ≤ 50) && decide (i.directory.length ≤ 96)
    && decide (i.user.length = 16) && i.user.all valueOk
    && i.directory.all (fun e => wrapOk e.wrap) && wrapOk i.eod.wrap && lposOk i.eod.lpos

/-- What a frame carries lies within the fields of R86: a tag 0..31, a frame index 1..32 of a payload frame with its 32,768 bytes
(R2), and a count of entries. -/
def TapeFrame.ok : TapeFrame → Bool
  | .header tag h => decide (tag ≤ 31) && decide (h.entryCount ≤ 8192)
  | .payload tag _ index syms => decide (tag ≤ 31) && decide (1 ≤ index) && decide (index ≤ 32) && decide (syms.length = 32768)
  | .abandon tag _ => decide (tag ≤ 31)
  | .eod tag _ _ => decide (tag ≤ 31)

def Found.ok : Found → Bool
  | .readable f => f.ok
  | .unreadable => true
  | .blank => true

/-- A DATA-OUT payload is 1 to 65,536 bytes (R165). -/
def payloadOk (p : List Byte) : Bool := decide (1 ≤ p.length) && decide (p.length ≤ 65536)

/-- The count of a CREDIT is 1..1,024 (R165). -/
def creditOk (n : BitVec 16) : Bool := decide (1 ≤ n.toNat) && decide (n.toNat ≤ 1024)

/-- A command or event is well-formed. -/
def Instr.wf : Instr → Bool
  | .powerOn j => j.ok
  | .resetLine j => j.ok
  | .bufferMemoryTestDone _ stages => decide (stages ≤ 4)
  | .lineSignalAppears => true
  | .lineSignalLost => true
  | .hello _ => true
  | .helloTimeout => true
  | .badCheckFrame => true
  | .frameRejected => true
  | .dataOut _ payload => payloadOk payload
  | .receiveCredit count => creditOk count
  | .dataInSend => true
  | .unknownCommand _ => true
  | .status _ => true
  | .identify _ => true
  | .readPosition _ => true
  | .readCounters _ => true
  | .readAttribute _ name => name.ok
  | .writeAttribute _ name value => name.ok && valueOk value
  | .setSetting _ _ _ => true
  | .saveSettings _ => true
  | .storeWriteDone _ => true
  | .setEventMask _ _ _ => true
  | .clearEvents _ _ => true
  | .abort _ _ => true
  | .custodyRequest _ => true
  | .custodyAnswer _ _ => true
  | .release _ => true
  | .readFaultRecord _ => true
  | .resetDrive _ => true
  | .writeRecords _ _ _ => true
  | .writeFilemarks _ _ _ => true
  | .flush _ => true
  | .readRecords _ _ _ => true
  | .space _ _ _ _ _ => true
  | .locate _ _ _ => true
  | .rewind _ _ => true
  | .rebuildDirectory _ => true
  | .thread _ => true
  | .unthread _ _ => true
  | .eject _ => true
  | .discardBuffer _ => true
  | .queueHeadBegins => true
  | .poll => true
  | .libraryThread => true
  | .libraryUnthread => true
  | .libraryEject => true
  | .libraryDriveReset => true
  | .libraryCustodyRequest => true
  | .libraryCustodyAnswer _ => true
  | .custodyRelease => true
  | .setLibraryPolicy _ => true
  | .libraryRecordIgnored => true
  | .libraryUnknownType _ => true
  | .libraryLineBreak => true
  | .breakEnds => true
  | .custodyQuestionTimeout => true
  | .graceTimeout => true
  | .cartridgeInserted c => c.memory.ok
  | .cmReadAttemptDone _ => true
  | .stagePushDone => true
  | .stageAttemptTimeout => true
  | .stagePopDone => true
  | .stagePopFailed => true
  | .sessionOpenWriteDone _ => true
  | .cmWriteBackDone _ => true
  | .ejectPushDone => true
  | .ejectPushTimeout => true
  | .useDecrementDone _ => true
  | .cleaningRunDone => true
  | .restTimerExpiry => true
  | .retensionDone => true
  | .tensionTimeout => true
  | .rampDone lpos => lposOk lpos
  | .backhitchDone lpos => lposOk lpos
  | .seekDone lpos => lposOk lpos
  | .turnaroundDone lpos => lposOk lpos
  | .operationOverrun => true
  | .servoMark wrap lpos => wrapOk wrap && lposOk lpos
  | .servoLost => true
  | .motionSecond => true
  | .packRecordPart _ => true
  | .framePlace _ => true
  | .verifyFramePassed found => found.ok
  | .readFramePassed lpos found => lposOk lpos && found.ok
  | .checkDecodeDone _ => true
  | .headerScanFrame lpos found => lposOk lpos && found.ok
  | .rebuildFrame lpos found => lposOk lpos && found.ok
  | .libraryAnswerSent => true
  | .resetLineAsserted => true

end Sys2Proof
end

