-- ==== Sys2Proof/Tests/Slice0.lean ====
section
/-! SUPPORT. The model's own tests: ill-formed commands are refused by `Instr.wf`; for each statement with hypotheses a state and operands
that meet them (`witness_<statement>`, clause by clause, at boundary values where a clause has a range); and worked examples of the spec. -/

namespace Sys2Proof.Tests

open Sys2Proof.Machine

/-! ## States -/

/-- READY, the link UP, the drive empty. -/
def ready : State := { State.reset with frg.condition := .ready, dlp.link := .up, dlp.signal := true }

/-- READY with the library line LISTENING. -/
def listening : State := { ready with lbp.line := .listening }

/-- A blank Cartridge Memory of Level 4. -/
def memory : CmImage := ⟨.data, 4, "ABCDEFGHIJKL", 0, false, [], EodPos.empty, 0, none, [], 0, List.replicate 16 none⟩

def cart : Cartridge := ⟨.data, false, memory⟩

/-- A cartridge negotiated READ/WRITE, custody with the Data Link. -/
def loaded : State := { ready with
  cah.state := .negotiated
  cah.cartridge := some cart
  cah.sensedType := some .data
  cah.image := some memory
  cah.cmReadable := true
  cah.mode := some .readWrite
  cah.negotiated := some .readWrite
  cah.holder := .link
  fmc.directoryValid := true }

/-- A threaded tape at BOT, at rest, with EOD current. -/
def tape : State := { loaded with
  cah.state := .threaded
  cah.stack := stageOrder
  moc.motion := .stopped
  moc.wrap := some 0
  moc.lpos := some 1000000
  wch.eodCurrent := true }

/-- A threaded tape with objects 0 to 9 on wrap 0, the Position at 4. -/
def written : State := { tape with
  fmc.position := 4
  fmc.directory := [⟨0, 0, 1, 0, 0, false⟩]
  fmc.eod := ⟨0, 1010824, some 1, 10, false⟩ }

/-! ## Ill-formed commands -/

theorem test_wf_jumpers : Instr.wf (.powerOn ⟨16, false, false, false⟩) = false ∧ Instr.wf (.resetLine ⟨16, false, false, false⟩) = false
    ∧ Instr.wf (.powerOn ⟨15, true, true, true⟩) = true := by decide

theorem test_wf_stages : Instr.wf (.bufferMemoryTestDone true 5) = false ∧ Instr.wf (.bufferMemoryTestDone true 4) = true := by decide

theorem test_wf_data_out : Instr.wf (.dataOut 1 []) = false ∧ Instr.wf (.dataOut 1 [0#8]) = true := by decide

theorem test_wf_data_out_long : Instr.wf (.dataOut 1 (List.replicate 65537 0#8)) = false := by
  unfold Instr.wf payloadOk
  dsimp only
  rw [List.length_replicate]
  decide

theorem test_wf_credit : Instr.wf (.receiveCredit 0#16) = false ∧ Instr.wf (.receiveCredit 1025#16) = false
    ∧ Instr.wf (.receiveCredit 1024#16) = true := by decide

theorem test_wf_attribute : Instr.wf (.readAttribute 1 (.user 16)) = false ∧ Instr.wf (.writeAttribute 1 (.user 16) none) = false
    ∧ Instr.wf (.writeAttribute 1 (.user 15) (some [])) = false
    ∧ Instr.wf (.writeAttribute 1 (.user 15) (some (List.replicate 65 0#8))) = false
    ∧ Instr.wf (.writeAttribute 1 (.user 15) (some (List.replicate 64 0#8))) = true := by decide

theorem test_wf_cartridge : Instr.wf (.cartridgeInserted cart) = true
    ∧ Instr.wf (.cartridgeInserted { cart with memory := { memory with level := 0 } }) = false
    ∧ Instr.wf (.cartridgeInserted { cart with memory := { memory with level := 16 } }) = false
    ∧ Instr.wf (.cartridgeInserted { cart with memory := { memory with serial := "ABC" } }) = false
    ∧ Instr.wf (.cartridgeInserted { cart with memory := { memory with loadCount := 16777216 } }) = false
    ∧ Instr.wf (.cartridgeInserted { cart with memory := { memory with history := List.replicate 5 ⟨"", 0, 0, 0, 0⟩ } }) = false
    ∧ Instr.wf (.cartridgeInserted { cart with memory := { memory with remainingUses := 51 } }) = false
    ∧ Instr.wf (.cartridgeInserted { cart with memory := { memory with directory := List.replicate 97 ⟨0, 0, 0, 0, 0, false⟩ } }) = false
    ∧ Instr.wf (.cartridgeInserted { cart with memory := { memory with directory := [⟨96, 0, 0, 0, 0, false⟩] } }) = false
    ∧ Instr.wf (.cartridgeInserted { cart with memory := { memory with eod := ⟨0, 98000001, none, 0, false⟩ } }) = false
    ∧ Instr.wf (.cartridgeInserted { cart with memory := { memory with user := [] } }) = false
    ∧ Instr.wf (.cartridgeInserted { cart with memory := { memory with user := List.replicate 16 (some []) } }) = false := by decide

theorem test_wf_mark : Instr.wf (.servoMark 96 0) = false ∧ Instr.wf (.servoMark 95 98000001) = false
    ∧ Instr.wf (.servoMark 95 98000000) = true := by decide

theorem test_wf_lpos : Instr.wf (.rampDone 98000001) = false ∧ Instr.wf (.backhitchDone 98000001) = false
    ∧ Instr.wf (.seekDone 98000001) = false ∧ Instr.wf (.turnaroundDone 98000001) = false
    ∧ Instr.wf (.readFramePassed 98000001 .blank) = false ∧ Instr.wf (.headerScanFrame 98000001 .blank) = false
    ∧ Instr.wf (.rebuildFrame 98000001 .blank) = false ∧ Instr.wf (.seekDone 98000000) = true := by decide

theorem test_wf_frames : Instr.wf (.verifyFramePassed (.readable (.abandon 32 0))) = false
    ∧ Instr.wf (.headerScanFrame 0 (.readable (.header 0 ⟨0, 0, 8193, []⟩))) = false
    ∧ Instr.wf (.headerScanFrame 0 (.readable (.header 32 ⟨0, 0, 1, []⟩))) = false
    ∧ Instr.wf (.rebuildFrame 0 (.readable (.eod 32 none 0))) = false
    ∧ Instr.wf (.rebuildFrame 0 (.readable (.eod 31 none 0))) = true := by decide

/-- A payload frame read at a place, with `n` bytes. -/
def payloadMet (tag index n : Nat) : Instr := .readFramePassed 0 (.readable (.payload tag 0 index (List.replicate n (.raw 0))))

/-- A payload frame has an index 1 to 32, a tag 0 to 31 and 32,768 bytes. -/
theorem test_wf_payload : Instr.wf (payloadMet 0 0 32768) = false ∧ Instr.wf (payloadMet 0 33 32768) = false
    ∧ Instr.wf (payloadMet 32 1 32768) = false ∧ Instr.wf (payloadMet 0 1 32767) = false ∧ Instr.wf (payloadMet 0 1 32769) = false
    ∧ Instr.wf (payloadMet 31 32 32768) = true := by
  unfold payloadMet Instr.wf Found.ok TapeFrame.ok
  dsimp only
  simp only [List.length_replicate]
  decide

/-- No row of the table gives bits, so no word is a command and nothing is put in the queue. -/
theorem test_no_word : decodeTableWord 16 0 = none ∧ (State.reset.withFetchWord 16 0).pending = [] := ⟨rfl, rfl⟩

/-! ## Worked examples of the spec -/

/-- The first record of "two records in one data set": A B C D four times and E F G H. -/
def firstRecord : List Byte := [65, 66, 67, 68, 65, 66, 67, 68, 65, 66, 67, 68, 65, 66, 67, 68, 69, 70, 71, 72]

/-- R26, R29: 20 bytes cost 13, as a run of 4, a Match of 12 at offset 4 and a run of 4. -/
theorem test_first_record : (tokenFill 1048576 [] firstRecord).tokens = [.run [65, 66, 67, 68], .copy 12 4, .run [69, 70, 71, 72]]
    ∧ (tokenFill 1048576 [] firstRecord).cost = 13 ∧ (tokenFill 1048576 [] firstRecord).covered = 20 := by decide

/-- R26: the second record is a Match of 4 at offset 4 and a Match of 6 at offset 12, for a cost of 6. -/
theorem test_second_record : (tokenFill 1048563 firstRecord [69, 70, 71, 72, 65, 66, 67, 68, 69, 70]).tokens = [.copy 4 4, .copy 6 12]
    ∧ (tokenFill 1048563 firstRecord [69, 70, 71, 72, 65, 66, 67, 68, 69, 70]).cost = 6 := by decide

/-- R26: had the second record ended A B C D X, the tie goes to the smallest offset, 12. -/
theorem test_smallest_offset : (tokenFill 1048563 firstRecord [69, 70, 71, 72, 65, 66, 67, 68, 88]).tokens = [.copy 4 4, .copy 4 12, .run [88]] := by
  decide

/-- "A part cut by the payload" (R30): with 7 bytes free the fill covers 6 bytes at a cost of 7, so 7 bytes are STORED. -/
theorem test_cut_part : formPart true true 7 10 [] [80, 81, 82, 83, 84, 85, 86, 87, 88, 89]
    = .part .stored [80, 81, 82, 83, 84, 85, 86] ([80, 81, 82, 83, 84, 85, 86].map .raw) false := by decide

/-- "A part cut by the payload": the rest of 3 bytes costs 4 as a run, so it is STORED. -/
theorem test_cut_rest : formPart true true 1048576 3 [] [87, 88, 89] = .part .stored [87, 88, 89] ([87, 88, 89].map .raw) false := by decide

/-- "Packing objects into data sets" (R4): the object after DSN 0, DSN 1, DSN 2 and DSN 3. -/
theorem test_objects_after :
    objectAfter 0 [.part ⟨700000, 700000, .stored, true, true⟩, .part ⟨348576, 348576, .stored, true, false⟩] = 1
    ∧ objectAfter 1 [.part ⟨151424, 151424, .stored, false, true⟩, .filemark, .part ⟨897152, 897152, .stored, true, false⟩] = 3
    ∧ objectAfter 3 [.part ⟨1048576, 1048576, .stored, false, false⟩] = 3
    ∧ objectAfter 3 [.part ⟨54272, 54272, .stored, false, true⟩, .part ⟨100000, 100000, .stored, true, true⟩] = 5 := by decide

/-- "Packing objects into data sets" (R8): four data sets without a rewrite put the EOD frame at 10,216.48 mm. -/
theorem test_eod_place : ((wrapStart 0).forward (4 * dataSetLen)).lpos = 1021648 := by decide

/-- "From samples to a lower cap" (R152, R153): the indices 54, 67, 125, 117 and 109. -/
theorem test_head_samples : sampleOf 3 = 90 ∧ hciAfter 52 90 = 54 ∧ sampleOf 9 = 272 ∧ hciAfter 54 272 = 67 ∧ hciAfter 67 1000 = 125
    ∧ hciAfter 125 0 = 117 ∧ hciAfter 117 0 = 109 := by decide

/-- "From samples to a lower cap" (R155): 67 gives ADVISORY, 125 REQUIRED with cap 4, and 540,000 s ADVISORY with cap 6. -/
theorem test_head_levels : levelOf 67 312400 = .advisory ∧ levelOf 125 312400 = .required ∧ levelCap .required = 4
    ∧ levelOf 10 539999 = .normal ∧ levelOf 10 540000 = .advisory ∧ levelCap .advisory = 6 := by decide

/-- "A cap fall at speed 6" (R122): the target becomes 4 at once, and the Pending Target 5 becomes absent. -/
theorem test_cap_fall : (setConditionCap 4 { tape with sgv.target := 6, sgv.pendingTarget := some 5, sgv.pendingCount := 1 }).sgv
    = { tape.sgv with target := 4, pendingTarget := none, pendingCount := 0 } := by decide

/-! ## Witnesses: steps, reset, the store -/

theorem witness_StepRunsFrontCommand : ({ ready with pending := [.poll, .flush 1] } : State).pending = .poll :: [.flush 1] := rfl

/-- A recovery that runs to BOT. -/
def runsToBot : State := { tape with
  moc.motion := .streaming, moc.step := 1, moc.towardHigh := false, moc.operation := some ⟨.recoveryRewind, some botPlace, [.slowRun], false⟩ }

theorem witness_IdleStepIsOneMicrosecond :
    (ready.pending = [] ∧ ready.moc.motion ≠ .streaming ∧ ready.moc.motion ≠ .seeking ∧ ready.moc.motion ≠ .ramping)
    ∧ (∀ m ∈ [Motion.streaming, .ramping],
      let z : State := { tape with moc.motion := m };
      z.pending = [] ∧ (z.moc.motion = .streaming ∨ z.moc.motion = .ramping) ∧ runningPhase z ≠ some .slowRun ∧ z.moc.motion ≠ .seeking)
    ∧ (runsToBot.pending = [] ∧ runsToBot.moc.motion = .streaming
      ∧ runsToBot.moc.operation = some ⟨.recoveryRewind, some botPlace, .slowRun :: [], false⟩)
    ∧ (ready.dlp.run.phase ≠ .reading ∧ ready.dlp.run.phase ≠ .waitFlush)
    ∧ (let z : State := { tape with dlp.queue := [⟨1, .readRecords 5 1⟩], dlp.run := { phase := .waitFlush } };
      z.pending = [] ∧ z.dlp.run.phase = .waitFlush ∧ z.dlp.queue.head? = some ⟨1, .readRecords 5 1⟩
        ∧ ∀ d ∈ z.dbf.readRing, d.state ≠ .ready ∧ d.state ≠ .draining) := by decide

theorem witness_StepKeepsSound : Sound { ready with pending := [.poll] } ∧ ∃ t, step { ready with pending := [.poll] } = .next t :=
  ⟨powerOnValues_sound, _, rfl⟩

theorem witness_StepTakesOneAndSendsOn : ∃ t, step { ready with pending := [.poll] } = .next t := ⟨_, rfl⟩

theorem witness_StoreChangesOnlyWhenAWriteEnds : (∃ t, exec .poll ready = .next t) ∧ ∀ ok, Instr.poll ≠ .storeWriteDone ok :=
  ⟨⟨_, rfl⟩, by decide⟩

/-- STARTING with a cartridge that stood in the drive when power returned. -/
def found : State := { State.reset with cah.cartridge := some cart, cah.found := true, cah.state := .seated }

theorem witness_MemoryTestEndsStarting :
    (State.reset.frg.condition = .starting ∧ State.reset.frg.lineAsserted = false ∧ State.reset.dlp.link = .down
      ∧ State.reset.dlp.queue = [] ∧ State.reset.cah.state = .empty ∧ State.reset.cah.cartridge = none ∧ State.reset.events.length = 25)
    ∧ (found.frg.condition = .starting ∧ found.frg.lineAsserted = false ∧ found.dlp.link = .down ∧ found.cah.cartridge = some cart
      ∧ found.cah.found = true ∧ found.events.length = 25)
    ∧ (1 ≤ 1 ∧ 1 ≤ 4 ∧ 1 ≤ 4 ∧ 4 ≤ 4) ∧ State.reset.frg.current = none := by decide

/-- Stored items just outside their ranges. -/
def badStore : State := { State.reset with
  pst.stored.readAheadLimit := some 97
  pst.stored.linkPolicy := some 4
  pst.stored.libraryPolicy := some 0
  pst.stored.compression := some 2
  pst.stored.autoThread := some 2
  pst.stored.linkPayload := some 4095
  pst.stored.addressOverride := some 17
  pst.stored.hci := some 1001
  pst.stored.level := some 4 }

theorem witness_StoredItemsAreLoadedOrDefaulted :
    (badStore.pst.stored.readAheadLimit = some 97 ∧ 96 < 97 ∧ badStore.events.length = 25)
    ∧ (badStore.pst.stored.linkPolicy = some 4 ∧ (4 = 0 ∨ 3 < 4))
    ∧ (({ badStore with pst.stored.linkPolicy := some 0 } : State).pst.stored.linkPolicy = some 0 ∧ (0 = 0 ∨ 3 < 0))
    ∧ (({ badStore with pst.stored.level := some 3 } : State).pst.stored.level = some 3 ∧ 3 ≤ 3)
    ∧ (badStore.pst.stored.libraryPolicy = some 0 ∧ (0 = 0 ∨ 3 < 0)) ∧ (badStore.pst.stored.compression = some 2 ∧ 2 ≤ 2)
    ∧ (badStore.pst.stored.autoThread = some 2 ∧ badStore.pst.stored.linkPayload = some 4095 ∧ (4095 < 4096 ∨ 65536 < 4095))
    ∧ (badStore.pst.stored.addressOverride = some 17 ∧ 17 ≤ 17)
    ∧ (badStore.pst.stored.hci = some 1001 ∧ 1000 < 1001) ∧ (badStore.pst.stored.level = some 4 ∧ 3 < 4) := by decide

theorem witness_DriveResetReturnsTheDriveToReady :
    (ready.frg.resetWork = none ∧ ready.frg.testFailed = false ∧ ready.dlp.queue = [] ∧ Open 1 ready ∧ ready.cah.state = .empty
      ∧ ready.events.length = 25)
    ∧ (tape.frg.resetWork = none ∧ tape.frg.testFailed = false ∧ tape.dlp.queue = [] ∧ Open 1 tape ∧ tape.cah.state = .threaded
      ∧ tape.moc.motion = .stopped ∧ tape.moc.operation = none ∧ tape.wch.writer = .idle ∧ tape.wch.eodCurrent = true)
    ∧ (listening.frg.resetWork = none ∧ listening.frg.testFailed = false ∧ listening.dlp.queue = [] ∧ listening.lbp.line = .listening
      ∧ (listening.frg.condition = .ready ∨ listening.frg.condition = .faulted) ∧ listening.cah.state = .empty)
    ∧ (let z : State := { listening with frg.condition := .starting };
      z.frg.resetWork = none ∧ z.frg.testFailed = false ∧ z.dlp.queue = [] ∧ z.lbp.line = .listening ∧ z.frg.condition ≠ .ready
        ∧ z.frg.condition ≠ .faulted) := by decide

/-- Two Flushes in the Medium Queue, the library line LISTENING. -/
def twoFlushes : State := { listening with dlp.queue := [⟨9, .flush⟩, ⟨10, .flush⟩], dlp.tags := [9, 10] }

theorem witness_DriveResetReturnsTheDriveToReady_queue : twoFlushes.frg.resetWork = none
    ∧ twoFlushes.dlp.queue = ⟨9, .flush⟩ :: [⟨10, .flush⟩] ∧ twoFlushes.dlp.run.mute = false ∧ twoFlushes.dlp.run.answered = false
    ∧ Open 1 twoFlushes ∧ twoFlushes.lbp.line = .listening ∧ (twoFlushes.frg.condition = .ready ∨ twoFlushes.frg.condition = .faulted)
    ∧ twoFlushes.dlp.link = .up := by decide

/-- Entries of a fault record. -/
def entryOf (u : FaultUnit) : FaultEntry := ⟨u, .crcRun, 0, .ready, .stopped, .empty⟩

theorem witness_FaultEntersTheRecordByPriority :
    [entryOf .servo, entryOf .link, entryOf .head].length < 4
    ∧ (4 ≤ [entryOf .servo, entryOf .link, entryOf .head, entryOf .link].length
      ∧ (entryOf .reelDrive).unit.priority < lowestPriority [entryOf .servo, entryOf .link, entryOf .head, entryOf .link])
    ∧ (4 ≤ (List.replicate 4 (entryOf .link)).length
      ∧ lowestPriority (List.replicate 4 (entryOf .link)) ≤ (entryOf .link).unit.priority)
    ∧ entryOf .link ∈ [entryOf .link] ∧ suspectOf [entryOf .link, entryOf .servo] = some .servo := by decide

/-! ## Witnesses: events, the link, what a command meets -/

theorem witness_LatchCountsAndPends : ({ masked := true } : EventFlags).latched = false
    ∧ ({ latched := true, count := 255 } : EventFlags).latched = true ∧ ready.events.length = 25
    ∧ Event.number .linkError = Event.number .linkError := by decide

theorem witness_EventsAreMaskedAndCleared :
    (Open 1 ready ∧ ([25] ++ [1]).all eventNumberOk = true ∧ 1 ≤ 1 ∧ 1 ≤ ready.events.length ∧ 25 ≤ ready.events.length ∧ 1 ∈ [1]
      ∧ (25 ∉ [1] ∧ 25 ∈ [25]) ∧ (2 ∉ [1] ∧ 2 ∉ [25])
      ∧ (flagsOf 1 { ready with events := ready.events.map EventFlags.latch }.events).latched = true)
    ∧ (([0] ++ []).all eventNumberOk = false ∧ ([] ++ [26]).all eventNumberOk = false)
    ∧ (((some [25] : Option (List Nat)).getD []).all eventNumberOk = true ∧ 25 ∈ (some [25] : Option (List Nat)).getD []
      ∧ (some [25] : Option (List Nat)) ≠ none ∧ 1 ∉ (some [25] : Option (List Nat)).getD []
      ∧ ((none : Option (List Nat)).getD []).all eventNumberOk = true
      ∧ ((some [26] : Option (List Nat)).getD []).all eventNumberOk = false) := by decide

theorem witness_NoticesTellThePendingEvents :
    (let z : State := { ready with events := ready.events.map EventFlags.latch };
      z.dlp.link = .up ∧ ∃ f ∈ z.events, f.pending = true)
    ∧ (∀ f ∈ ready.events, f.pending = false) ∧ State.reset.dlp.link ≠ .up := by decide

theorem witness_CalmStateOnlySendsNotices : Calm ready := by constructor <;> decide

theorem witness_HelloExchangeBringsTheLinkUp :
    (let z : State := { ready with dlp.link := .down };
      z.frg.condition ≠ .starting ∧ z.dlp.link = .down ∧ z.dlp.link ≠ .awaitingHello)
    ∧ (State.reset.frg.condition = .starting ∨ State.reset.dlp.link ≠ .down) ∧ ready.dlp.link ≠ .down
    ∧ (let z : State := { ready with dlp.link := .awaitingHello };
      z.dlp.link = .awaitingHello ∧ z.dlp.creditsOut + z.dbf.staging.length < 32 ∧ z.cah.question = none) := by decide

theorem witness_LinkResetClearsThePort : ready.dlp.queue = [] ∧ ready.dlp.link ≠ .down ∧ State.reset.dlp.queue = []
    ∧ State.reset.dlp.link = .down ∧ ready.dlp.link = .up ∧ ready.dbf.staging.length < 32 ∧ ready.cah.question = none := by decide

theorem witness_LinkResetClearsThePort_queue :
    ∀ p ∈ [HeadPhase.notBegun, .waitMedia, .waitCommit, .waitSync, .waitStop],
      let z : State := { twoFlushes with dlp.run := { phase := p } };
      z.dlp.link ≠ .down ∧ z.dlp.run.aborting = false ∧ z.dlp.run.answered = false ∧ z.dlp.queue ≠ [] ∧ z.dlp.run.phase = p := by
  decide

theorem witness_BadChecksAreCounted : State.reset.dlp.link = .down ∧ ready.dlp.link ≠ .down
    ∧ ({ ready with dlp.crcRun := 6 } : State).dlp.crcRun + 1 < 8 ∧ ({ ready with dlp.crcRun := 7 } : State).dlp.crcRun + 1 = 8
    ∧ ready.dlp.queue = [] ∧ ready.frg.current = none := by decide

theorem witness_RepliesRecordsAndFramesHaveTheirBytes :
    (let x : Sense := { sense .badCount with info := some 7, dsn := some 0, count := some 281474976710655 };
      x.info = some 7 ∧ x.dsn = some 0 ∧ x.count = some 281474976710655) := by decide

/-- A Medium Queue of `n` Flushes. -/
def queued (n : Nat) : State := { ready with dlp.queue := List.replicate n ⟨9, .flush⟩, dlp.tags := [9] }

theorem witness_CommandsAreTakenInOrder :
    ((queued 1).dlp.link = .up ∧ (queued 1).dlp.tags.contains 9 = true)
    ∧ (let z : State := { ready with frg.condition := .loading };
      z.dlp.link = .up ∧ z.dlp.tags.contains 1 = false ∧ notServed (heard z) = true)
    ∧ (ready.dlp.link = .up ∧ ready.dlp.tags.contains 1 = false ∧ notServed (heard ready) = false)
    ∧ ((queued 16).dlp.link = .up ∧ 16 ≤ (queued 16).dlp.queue.length)
    ∧ ((queued 15).dlp.queue.length < 16 ∧ (queued 15).dlp.queue ≠ []) ∧ (queued 0).dlp.queue = [] := by decide

theorem witness_ReportsAreAnsweredAtOnce : ready.dlp.link = .up ∧ ready.dlp.tags.contains 1 = false
    ∧ (ready.frg.condition = .ready ∨ ready.frg.condition = .faulted) := by decide

theorem witness_AttributesAreReadAndWritten :
    (Open 1 loaded ∧ attrFits (.user 15) = true ∧ loaded.cah.state ≠ .empty ∧ loaded.cah.state ≠ .seated
      ∧ loaded.cah.cmReadable = true ∧ loaded.cah.image = some memory ∧ attrValueFits (some [0#8]) = true
      ∧ attrValueFits (some (List.replicate 64 0#8)) = true ∧ memory.cartType = .data
      ∧ ({ memory with cartType := .cleaning } : CmImage).cartType = .cleaning)
    ∧ (attrFits .level = true ∧ ∀ n, AttrName.level ≠ .user n)
    ∧ (Open 1 ready ∧ (ready.cah.state = .empty ∨ ready.cah.state = .seated) ∧ attrValueFits none = true)
    ∧ (let z : State := { loaded with cah.cmReadable := false };
      Open 1 z ∧ z.cah.state ≠ .empty ∧ z.cah.state ≠ .seated ∧ z.cah.cmReadable = false) := by
  refine ⟨by decide, ⟨by decide, fun n h => by cases h⟩, by decide, by decide⟩

theorem witness_SettingsTakeTheirValues : Open 1 ready ∧ (1 = if true then 1 else 0) ∧ 3 = policyCode .ask
    ∧ (4096 ≤ 4096 ∧ 65536 ≤ 65536) ∧ 16 ≤ 16 ∧ 33554431 < 2 ^ 25 ∧ 24 < ready.events.length
    ∧ (2 ^ 25 ≤ 33554432 ∧ SettingName.eventMask = .eventMask)
    ∧ ((4 = 0 ∨ 4 ≤ 4) ∧ SettingName.linkPolicy = .linkPolicy)
    ∧ ((65537 < 4096 ∨ 65536 < 65537) ∧ SettingName.linkPayloadDefault = .linkPayloadDefault)
    ∧ (17 ≤ 17 ∧ SettingName.driveAddressOverride = .driveAddressOverride) ∧ (2 ≤ 2 ∧ SettingName.autoThread = .autoThread) := by
  decide

theorem witness_StoreWritesBeginAndEnd :
    Open 1 ready
    ∧ (({ ready with pst.writes := [.retained 0 .normal 0] } : State).pst.writes = .retained 0 .normal 0 :: []
      ∧ ∀ t d, StoreWrite.retained 0 .normal 0 ≠ .settings (some t) d)
    ∧ (({ ready with pst.writes := [.settings (some 1) {}] } : State).pst.writes = .settings (some 1) {} :: []
      ∧ ready.dlp.link = .up)
    ∧ ready.pst.writes = [] := by
  refine ⟨by decide, ⟨rfl, fun t d h => by cases h⟩, ⟨rfl, rfl⟩, rfl⟩

/-- A command with tag 2 at the head, in one of its phases. -/
def headIn (c : MedCmd) (p : HeadPhase) (s : State) : State :=
  { s with dlp.tags := [2], dlp.queue := [⟨2, c⟩], dlp.run := { phase := p } }

/-- An Abort with tag 1 that names tag 2 meets the head, whose work is still its own. -/
abbrev AbortsHead (z : State) : Prop := Open 1 z ∧ (2 : Tag) ≠ 1 ∧ z.dlp.tags.contains 2 = true ∧ z.cah.question = none
  ∧ z.dlp.run.mute = false ∧ z.dlp.run.aborting = false ∧ z.dlp.run.answered = false

theorem witness_AbortNamesATag :
    (Open 1 ready ∧ (2 : Tag) ≠ 1 ∧ ready.dlp.tags.contains 2 = false)
    ∧ (let z : State := { ready with dlp.tags := [2], cah.question := some { requester := .link, tag := some 2 } };
      Open 1 z ∧ z.dlp.tags.contains 2 = true ∧ z.cah.question.bind (fun q => q.tag) = some 2)
    ∧ (let z : State := { ready with dlp.tags := [2, 3], dlp.queue := [⟨3, .flush⟩, ⟨2, .thread⟩] };
      Open 1 z ∧ z.dlp.tags.contains 2 = true ∧ z.cah.question = none ∧ z.dlp.queue = ⟨3, .flush⟩ :: [⟨2, .thread⟩] ∧ (3 : Tag) ≠ 2
        ∧ ([⟨2, .thread⟩] : List QEntry).find? (fun y => y.tag == 2) = some ⟨2, .thread⟩)
    ∧ (let z : State := { ready with dlp.tags := [2], pst.writes := [.settings (some 2) {}] };
      Open 1 z ∧ z.dlp.tags.contains 2 = true ∧ z.cah.question = none ∧ z.dlp.queue = [])
    ∧ (∀ p ∈ [HeadPhase.notBegun, .waitMedia, .waitCommit, .waitSync, .waitStop],
      let z := headIn .flush p ready;
      AbortsHead z ∧ z.dlp.queue = ⟨2, .flush⟩ :: [] ∧ z.dlp.run.phase = p) := by decide

theorem witness_AbortNamesATag_head :
    (let z := headIn (.writeRecords false [5]) .receiving tape;
      AbortsHead z ∧ z.dlp.queue = ⟨2, .writeRecords false [5]⟩ :: [] ∧ z.dlp.run.phase = .receiving)
    ∧ (let z := headIn (.readRecords 5 1) .reading tape;
      AbortsHead z ∧ z.dlp.queue = ⟨2, .readRecords 5 1⟩ :: [] ∧ z.dlp.run.phase = .reading ∧ readBetween z = false)
    ∧ (let z := headIn (.readRecords 5 1) .reading { tape with
        moc.motion := .streaming, moc.work := .collecting, rch.duty := .collect, rch.current := some { dsn := 0 }
        dbf.readRing := [{ state := .reading, dsn := 0 }] };
      AbortsHead z ∧ z.dlp.queue = ⟨2, .readRecords 5 1⟩ :: [] ∧ z.dlp.run.phase = .reading ∧ readBetween z = true
        ∧ (readingSlot z).isSome = true) := by decide

theorem witness_AbortNamesATag_moving :
    (let z := headIn (.locate 3 false) .searching tape;
      AbortsHead z ∧ z.dlp.queue = ⟨2, .locate 3 false⟩ :: [] ∧ z.dlp.run.phase = .searching ∧ readBetween z = false)
    ∧ (let z := headIn (.locate 3 false) .moving tape;
      AbortsHead z ∧ z.dlp.queue = ⟨2, .locate 3 false⟩ :: [] ∧ z.dlp.run.phase = .moving)
    ∧ (let z := headIn (.rewind false) .moving tape;
      AbortsHead z ∧ z.dlp.queue = ⟨2, .rewind false⟩ :: [] ∧ z.dlp.run.phase = .moving)
    ∧ (let r : Rebuild := { wasValid := false };
      let z := headIn .rebuildDirectory .rebuilding { tape with rch.rebuild := some r };
      AbortsHead z ∧ z.dlp.queue = ⟨2, .rebuildDirectory⟩ :: [] ∧ z.dlp.run.phase = .rebuilding ∧ z.rch.rebuild = some r
        ∧ rebuildingNow z = false ∧ readBetween z = false) := by decide

theorem witness_AbortNamesATag_rebuilding :
    (let r : Rebuild := { wasValid := false };
      let z := headIn .rebuildDirectory .rebuilding { tape with
        moc.motion := .streaming, moc.work := .rebuilding, rch.duty := .scan, rch.rebuild := some r };
      AbortsHead z ∧ rebuildingNow z = true) := by decide

/-- A Locate whose header scan runs, before and after its Abort. -/
def searching (aborting : Bool) : State :=
  let z := headIn (.locate 3 false) .searching { tape with
    moc.motion := .streaming, moc.work := .scanning, rch.duty := .scan, rch.scan := some { goal := .object 3 } }
  { z with dlp.run.aborting := aborting }

theorem witness_AbortNamesATag_boundary :
    (AbortsHead (searching false) ∧ (searching false).dlp.run.phase = .searching ∧ readBetween (searching false) = true)
    ∧ ((searching true).dlp.queue = ⟨2, .locate 3 false⟩ :: [] ∧ (searching true).dlp.run.mute = false
      ∧ (searching true).dlp.run.answered = false ∧ (searching true).dlp.run.aborting = true
      ∧ (searching true).dlp.run.phase = .searching ∧ scanningNow (searching true) = true) := by decide

/-! ## Witnesses: custody and the library line -/

/-- A negotiated cartridge with custody at the Library Port and a policy of its own. -/
def libraryHolds (p : Policy) : State := { loaded with cah.holder := .library, cah.libraryPolicy := p, lbp.line := .listening }

/-- The same with custody at the Data Link. -/
def linkHolds (p : Policy) : State := { loaded with cah.linkPolicy := p, lbp.line := .listening }

/-- A question of a port, with no tag. -/
def asks (p : Port) : Question := { requester := p }

theorem witness_LinkCustodyRequestsAreRuledInOrder :
    (Open 1 ready ∧ ready.cah.state = .empty)
    ∧ (Open 1 loaded ∧ loaded.cah.state ≠ .empty ∧ loaded.cah.holder = .link)
    ∧ (let z : State := { libraryHolds .ask with cah.question := some (asks .link) };
      Open 1 z ∧ z.cah.state ≠ .empty ∧ z.cah.holder = .library ∧ z.cah.question.isSome = true)
    ∧ (∀ p ∈ [Policy.grant, .refuse, .ask], Open 1 (libraryHolds p) ∧ (libraryHolds p).cah.state ≠ .empty
      ∧ (libraryHolds p).cah.holder = .library ∧ (libraryHolds p).cah.question = none ∧ (libraryHolds p).cah.libraryPolicy = p) := by
  decide

theorem witness_LinkAnswersAndReleasesCustody :
    (Open 1 (libraryHolds .ask) ∧ (libraryHolds .ask).cah.holder ≠ .link ∧ (libraryHolds .ask).cah.state ≠ .empty)
    ∧ (Open 1 loaded ∧ loaded.cah.holder = .link ∧ loaded.cah.question = none ∧ loaded.cah.state ≠ .empty)
    ∧ (let z : State := { loaded with cah.question := some (asks .library) };
      Open 1 z ∧ z.cah.holder = .link ∧ z.cah.question = some (asks .library) ∧ (asks .library).requester = .library
        ∧ (asks .library).tag = none ∧ z.cah.state ≠ .empty)
    ∧ (let q : Question := { requester := .library, tag := some 2 };
      let z : State := { loaded with cah.question := some q, dlp.tags := [2] };
      Open 1 z ∧ z.cah.holder = .link ∧ z.cah.question = some q ∧ q.tag = some 2)
    ∧ (Open 1 ready ∧ ready.cah.state = .empty) := by decide

theorem witness_LibraryLineCarriesPollsAndBreaks :
    (listening.lbp.line = .listening ∧ libraryType 255#8 = false) ∧ ready.lbp.line ≠ .listening
    ∧ (let z : State := { ready with lbp.line := .answering, lbp.answer := some (.reply 0 none none) };
      z.lbp.line = .answering ∧ z.lbp.answer = some (.reply 0 none none))
    ∧ (let z : State := { ready with lbp.line := .answering };
      z.lbp.line = .answering ∧ z.lbp.answer = none)
    ∧ (listening.lbp.line ≠ .disabled ∧ ∀ q : Question, listening.cah.question = some q → q.requester = .library)
    ∧ (let q : Question := { requester := .link, tag := some 2 };
      let z : State := { listening with cah.question := some q };
      z.lbp.line ≠ .disabled ∧ z.cah.question = some q ∧ q.requester = .link ∧ q.tag = some 2 ∧ z.dlp.link = .up)
    ∧ ready.lbp.line = .disabled ∧ ({ ready with lbp.line := .inBreak } : State).lbp.line = .inBreak ∧ ready.lbp.line ≠ .inBreak := by
  refine ⟨by decide, by decide, by decide, by decide, ⟨by decide, fun q h => by cases h⟩, by decide, by decide, by decide, by decide⟩

theorem witness_LibraryCustodyRecordsAreAnswered :
    (listening.lbp.line = .listening ∧ listening.cah.state = .empty)
    ∧ ((libraryHolds .ask).lbp.line = .listening ∧ (libraryHolds .ask).cah.state ≠ .empty ∧ (libraryHolds .ask).cah.holder = .library
      ∧ (libraryHolds .ask).cah.question = none)
    ∧ (let z : State := { linkHolds .ask with cah.question := some (asks .library) };
      z.lbp.line = .listening ∧ z.cah.state ≠ .empty ∧ z.cah.holder = .link ∧ z.cah.question.isSome = true)
    ∧ (let z : State := { linkHolds .ask with dlp.queue := [⟨2, .flush⟩] };
      z.lbp.line = .listening ∧ z.cah.state ≠ .empty ∧ z.cah.holder = .link ∧ z.cah.question = none ∧ z.dlp.queue ≠ [])
    ∧ (let z : State := { linkHolds .ask with cah.state := .cleaning };
      z.lbp.line = .listening ∧ z.cah.state = .cleaning ∧ z.cah.holder = .link ∧ z.cah.question = none ∧ z.dlp.queue = [])
    ∧ (∀ p ∈ [Policy.grant, .refuse, .ask], (linkHolds p).lbp.line = .listening ∧ (linkHolds p).cah.state ≠ .empty
      ∧ (linkHolds p).cah.state ≠ .cleaning ∧ (linkHolds p).cah.holder = .link ∧ (linkHolds p).cah.question = none
      ∧ (linkHolds p).dlp.queue = [] ∧ (linkHolds p).cah.linkPolicy = p)
    ∧ (let z : State := { libraryHolds .ask with cah.question := some (asks .link) };
      z.lbp.line = .listening ∧ z.cah.holder = .library ∧ z.cah.question = some (asks .link) ∧ (asks .link).requester = .link
        ∧ (asks .link).tag = none ∧ z.cah.state ≠ .empty)
    ∧ (let q : Question := { requester := .link, tag := some 2 };
      let z : State := { libraryHolds .ask with cah.question := some q, dlp.tags := [2] };
      z.lbp.line = .listening ∧ z.cah.state ≠ .empty ∧ z.cah.holder = .library ∧ z.cah.question = some q ∧ q.requester = .link
        ∧ q.tag = some 2 ∧ z.dlp.link = .up)
    ∧ (0#8 ≠ 1#8 ∧ 0#8 ≠ 2#8) ∧ (3#8).toNat = policyCode .ask ∧ (4 ≤ (4#8).toNat) := by decide

theorem witness_CustodyTimersSettle :
    ready.cah.question = none
    ∧ (({ loaded with cah.question := some (asks .library) } : State).cah.question = some (asks .library) ∧ (asks .library).tag = none)
    ∧ (let q : Question := { requester := .link, tag := some 2 };
      let z : State := { ready with cah.question := some q };
      z.cah.question = some q ∧ q.tag = some 2 ∧ z.dlp.link = .up)
    ∧ ready.cah.grace = none
    ∧ (let z : State := { loaded with cah.grace := some 60000000 };
      z.cah.grace ≠ none ∧ z.cah.holder = .link
        ∧ ∀ q : Question, z.cah.question = some q → q.requester = .library ∧ q.tag = none) := by
  refine ⟨by decide, by decide, by decide, by decide, by decide, by decide, fun q h => by cases h⟩

theorem witness_LibraryOrdersAreAnsweredByTheCartridgeState :
    (let z : State := { listening with frg.condition := .faulted };
      z.lbp.line = .listening ∧ z.frg.condition = .faulted)
    ∧ (let z : State := { listening with frg.condition := .loading };
      z.lbp.line = .listening ∧ z.frg.condition ≠ .faulted ∧ z.frg.condition ≠ .ready)
    ∧ (listening.lbp.line = .listening ∧ listening.frg.condition = .ready ∧ listening.cah.state = .empty
      ∧ listening.cah.holder = .library)
    ∧ (let z : State := libraryHolds .ask;
      z.lbp.line = .listening ∧ z.frg.condition = .ready ∧ (z.cah.state = .negotiated ∨ z.cah.state = .held)
        ∧ cleaningCartridge z = false ∧ z.cah.mode ≠ some .incompatible ∧ z.dlp.queue = [] ∧ z.cah.stack = []
        ∧ z.cah.holder = .library)
    ∧ (let z : State := { tape with lbp.line := .listening };
      z.lbp.line = .listening ∧ z.frg.condition = .ready ∧ z.cah.state = .threaded ∧ z.dlp.queue = [] ∧ z.wch.report = none
        ∧ z.wch.endOfMediumStop = false ∧ suspendedSlots z = false ∧ writeSideEmpty z = true ∧ writerBusy z = false
        ∧ z.cah.holder = .link)
    ∧ (let z : State := { tape with lbp.line := .listening, dlp.queue := [⟨2, .flush⟩] };
      z.lbp.line = .listening ∧ z.frg.condition = .ready ∧ z.cah.state = .threaded ∧ z.dlp.queue ≠ [])
    ∧ (let z : State := { tape with lbp.line := .listening, cah.state := .unthreading };
      z.lbp.line = .listening ∧ z.frg.condition = .ready ∧ (z.cah.state = .unthreading ∨ z.cah.state = .ejecting)) := by decide

/-! ## Witnesses: medium commands -/

theorem witness_MediumCommandsMeetTheirTestsInOrder :
    ({ tape with frg.condition := .faulted } : State).frg.condition = .faulted
    ∧ (HeadFree 1 tape ∧ writesTape (.writeFilemarks true 0) = true ∧ readsTape (.rewind true) = true)
    ∧ (let z : State := { tape with cah.state := .cleaning };
      HeadFree 1 z ∧ z.cah.state = .cleaning)
    ∧ (HeadFree 1 loaded ∧ loaded.cah.state ≠ .cleaning ∧ loaded.cah.state ≠ .threaded)
    ∧ (let r : Report := ⟨.writeFailure, some 0, 0, 0⟩;
      let z : State := { tape with wch.report := some r };
      HeadFree 1 z ∧ z.cah.state = .threaded ∧ z.wch.report = some r)
    ∧ (let z : State := { tape with wch.endOfMediumStop := true };
      HeadFree 1 z ∧ z.cah.state = .threaded ∧ z.wch.report = none ∧ z.wch.endOfMediumStop = true)
    ∧ (∀ m ∈ [Mode.writeSuspended, .readOnly .writeProtected, .readOnly .level3, .readOnly .cmUnreadable],
      let z : State := { tape with cah.mode := some m };
      HeadFree 1 z ∧ z.cah.state = .threaded ∧ z.wch.report = none ∧ z.wch.endOfMediumStop = false ∧ z.cah.mode = some m)
    ∧ (let z : State := { tape with cah.mode := some .writeSuspended, dbf.writeRing := [{ state := .pending, dsn := 0 }] };
      HeadFree 1 z ∧ z.cah.state = .threaded ∧ z.wch.report = none ∧ z.wch.endOfMediumStop = false ∧ suspendedSlots z = true) := by
  decide

/-- The Position at the end of the data. -/
def atEnd : State := { written with fmc.position := 10 }

/-- Data on the write side: a record that waits for the engine. -/
def busy : State := { tape with cpe.intake := [.record 9 5 5 0 none true false] }

theorem witness_WriteCommandsSetTheAppendPoint :
    (Served 1 atEnd ∧ atEnd.cah.mode = some .readWrite ∧ atEnd.wch.endOfMediumStop = false ∧ writeSideEmpty atEnd = true
      ∧ appendRefused atEnd = false ∧ atEnd.fmc.position = atEnd.fmc.eod.nextObject ∧ atEnd.fmc.position ≠ 0
      ∧ atEnd.fmc.eod.unended = false ∧ atEnd.fmc.directoryValid = true)
    ∧ (badRecordCount [1, 2097152] = false ∧ firstBadLength [1, 2097152] = none ∧ 256 ≤ 256)
    ∧ (Served 1 tape ∧ tape.cah.mode = some .readWrite ∧ tape.wch.endOfMediumStop = false ∧ writeSideEmpty tape = true
      ∧ appendRefused tape = false ∧ tape.fmc.position = 0)
    ∧ (Served 1 busy ∧ busy.cah.mode = some .readWrite ∧ busy.wch.endOfMediumStop = false ∧ writeSideEmpty busy = false)
    ∧ badRecordCount [] = true ∧ 256 < 257 := by decide

/-- The Position 1 lies in a slot of the read ring, the directory says no filemarks below its data set. -/
def inRing : State := { written with
  fmc.position := 1
  dbf.readRing := [{ state := .ready, dsn := 0, firstObject := some 0, objectCount := some 2, objectAfter := some 2,
                     entries := [.filemark, .filemark], startPlace := some ⟨0, 1000000⟩ }]
  dbf.direction := .read }

theorem witness_WriteCommandsSetTheAppendPoint_overwrite :
    (let d : Slot := { state := .ready, dsn := 0, firstObject := some 0, objectCount := some 2, objectAfter := some 2,
                       entries := [.filemark, .filemark], startPlace := some ⟨0, 1000000⟩ };
      Served 1 inRing ∧ inRing.cah.mode = some .readWrite ∧ inRing.wch.endOfMediumStop = false ∧ writeSideEmpty inRing = true
        ∧ appendRefused inRing = false ∧ inRing.fmc.position ≠ 0 ∧ inRing.fmc.directoryValid = true ∧ writerBusy inRing = false
        ∧ (inRing.fmc.position ≠ inRing.fmc.eod.nextObject ∨ inRing.fmc.eod.unended = true)
        ∧ slotHolding inRing.fmc.position inRing = some d ∧ knownHolder inRing.fmc.position d inRing = true
        ∧ knownMarks d.dsn inRing = some 0 ∧ d.startPlace = some ⟨0, 1000000⟩)
    ∧ (Served 1 written ∧ written.cah.mode = some .readWrite ∧ written.wch.endOfMediumStop = false ∧ writeSideEmpty written = true
        ∧ appendRefused written = false ∧ written.fmc.position ≠ 0 ∧ written.fmc.directoryValid = true ∧ writerBusy written = false
        ∧ written.fmc.position ≠ written.fmc.eod.nextObject ∧ slotHolding written.fmc.position written = none
        ∧ entryFor written.fmc.position written.fmc.directory = some ⟨0, 0, 1, 0, 0, false⟩) := by decide

theorem witness_WriteCommandsSetTheAppendPoint_tape :
    (let z : State := { tape with wch.writer := .ending, wch.eodCurrent := false, wch.eodPlan := some ⟨.idle, 1⟩ };
      Served 1 z ∧ writeSideEmpty z = true ∧ appendRefused z = false ∧ z.fmc.position = 0 ∧ writerBusy z = true)
    ∧ (tape.fmc.position = 0 ∧ writerBusy tape = false)
    ∧ (let z : State := { atEnd with fmc.eod.unended := true };
      z.fmc.position = z.fmc.eod.nextObject ∧ (z.fmc.position ≠ z.fmc.eod.nextObject ∨ z.fmc.eod.unended = true)
        ∧ appendRefused z = false ∧ entryFor z.fmc.position z.fmc.directory = some ⟨0, 0, 1, 0, 0, false⟩) := by decide

theorem witness_too_many_records : badRecordCount (List.replicate 257 1) = true := by
  unfold badRecordCount
  rw [List.length_replicate]
  decide

/-- A Write Records of one record of `len` bytes that receives, with one credit. -/
def receiving (len : Nat) : State := { tape with
  dlp.queue := [⟨1, .writeRecords false [len]⟩]
  dlp.tags := [1]
  dlp.run := { phase := .receiving, lengths := [len] }
  dlp.creditsOut := 1 }

theorem witness_CreditsAndDataOut :
    (ready.dlp.link = .up ∧ ready.dlp.receiveCredits + (1024#16).toNat ≤ 1024)
    ∧ (1024 < ({ ready with dlp.receiveCredits := 1 } : State).dlp.receiveCredits + (1024#16).toNat)
    ∧ (tape.dlp.link = .up ∧ 1 ≤ [7#8].length ∧ [7#8].length ≤ tape.dlp.agreed ∧ tape.dlp.creditsOut = 0)
    ∧ (∀ len ∈ [2, 1], 0 < (receiving len).dlp.creditsOut
      ∧ (receiving len).dlp.queue = ⟨1, .writeRecords false [len]⟩ :: [] ∧ (receiving len).dlp.run.phase = .receiving
      ∧ (receiving len).dlp.run.lengths = len :: [] ∧ (receiving len).dlp.run.got = 0 ∧ (receiving len).dlp.run.mute = false
      ∧ (receiving len).cpe.intake.all (fun x => !x.partialOf 1) = true)
    ∧ ([7#8].length < 2 ∧ [7#8].length = 1)
    ∧ ({ tape with dlp.agreed := 0 } : State).dlp.agreed < [7#8].length := by decide

theorem witness_FlushAndDiscardBuffer :
    (Served 1 tape ∧ tape.wch.endOfMediumStop = false ∧ tape.cah.mode ≠ some .writeSuspended ∧ writeSideEmpty tape = true)
    ∧ (Served 1 busy ∧ busy.wch.endOfMediumStop = false ∧ busy.cah.mode ≠ some .writeSuspended ∧ writeSideEmpty busy = false)
    ∧ (HeadFree 1 tape ∧ tape.cah.state ≠ .cleaning ∧ writeSideEmpty busy = false)
    ∧ (HeadFree 1 busy ∧ busy.cah.state ≠ .cleaning ∧ writerBusy (takeDiscard (taken 1 .discardBuffer busy)) = false)
    ∧ (let z : State := { busy with wch.eodCurrent := false };
      HeadFree 1 z ∧ z.cah.state ≠ .cleaning ∧ writerBusy (takeDiscard (taken 1 .discardBuffer z)) = true)
    ∧ (let z : State := { tape with cah.state := .cleaning };
      HeadFree 1 z ∧ z.cah.state = .cleaning) := by decide

/-- A slot that is being delivered: one record of two bytes and a filemark, decoded clean. -/
def draining : Slot := {
  state := .draining, dsn := 0, firstObject := some 0, objectCount := some 2, objectAfter := some 2,
  entries := [.part ⟨2, 2, .stored, true, true⟩, .filemark], payload := [.raw 5, .raw 6] }

/-- A Read Records of one record of two bytes that executes, with one receive credit, at an agreed size. -/
def delivering (agreed : Nat) : State := { tape with
  dlp.queue := [⟨1, .readRecords 2 1⟩]
  dlp.tags := [1]
  dlp.run := { phase := .reading }
  dlp.receiveCredits := 1
  dlp.agreed := agreed
  dbf.readRing := [draining]
  dbf.direction := .read
  cpe.engine := .unpacking
  cpe.checked := true }

theorem witness_ReadRecordsDeliversInFrames :
    (Served 1 tape ∧ tape.wch.endOfMediumStop = false ∧ suspendedSlots tape = false ∧ writeSideEmpty tape = true
      ∧ writerBusy tape = false ∧ tape.dbf.direction ≠ .write ∧ (tape.dbf.direction = .read → tape.dbf.readRing ≠ []))
    ∧ (1 ≤ 256 ∧ 256 ≤ 256 ∧ 1 ≤ 2097152 ∧ 2097152 ≤ 2097152) ∧ (257 = 0 ∨ 256 < 257) ∧ (2097153 = 0 ∨ 2097152 < 2097153)
    ∧ (∀ agreed ∈ [4096, 1], (delivering agreed).dlp.queue = ⟨1, .readRecords 2 1⟩ :: [] ∧ (delivering agreed).dlp.run.phase = .reading
      ∧ (delivering agreed).dlp.link = .up ∧ 0 < (delivering agreed).dlp.receiveCredits
      ∧ pointer (delivering agreed) = .part draining ⟨2, 2, .stored, true, true⟩ [5, 6] false
      ∧ (delivering agreed).dlp.run.sent = 0 ∧ (delivering agreed).dlp.run.chunk = [] ∧ (delivering agreed).dlp.run.partDone = 0
      ∧ (delivering agreed).dlp.run.decoded = 0
      ∧ (delivering agreed).dlp.run.aborting = false ∧ drainingSlot (delivering agreed) = some draining
      ∧ (delivering agreed).cpe.engine = .unpacking ∧ (delivering agreed).cpe.checked = true)
    ∧ ([5#8, 6#8].length = 2 ∧ 2 ≤ (delivering 4096).dlp.agreed ∧ (delivering 1).dlp.agreed < 2 ∧ 0 < (delivering 1).dlp.agreed)
    ∧ ready.dlp.receiveCredits = 0 := by decide

theorem witness_SpaceAndLocateSearch :
    (Served 1 written ∧ written.wch.endOfMediumStop = false ∧ suspendedSlots written = false ∧ writeSideEmpty written = true
      ∧ writerBusy written = false ∧ written.dbf.direction = .neutral ∧ written.fmc.directoryValid = true ∧ written.dbf.readRing = []
      ∧ written.moc.motion = .stopped ∧ written.moc.operation = none)
    ∧ (¬(SpaceKind.records = .eod ∧ Dir.backward = .backward) ∧ SpaceKind.records ≠ .eod ∧ tape.fmc.position = 0 ∧ 0 < 16777215
      ∧ 16777215 ≤ 16777215 ∧ 16777215 < 16777216 ∧ 281474976710655 < 281474976710656 ∧ 281474976710655 ≤ 281474976710655)
    ∧ (Served 1 tape ∧ suspendedSlots tape = false ∧ writeSideEmpty tape = true ∧ writerBusy tape = false
      ∧ tape.dbf.direction = .neutral)
    ∧ (written.fmc.eod.nextObject ≤ 10 ∧ 9 < written.fmc.eod.nextObject
      ∧ entryFor 9 written.fmc.directory = some ⟨0, 0, 1, 0, 0, false⟩)
    ∧ (written.fmc.position < written.fmc.eod.nextObject ∧ entryFor written.fmc.position written.fmc.directory = some ⟨0, 0, 1, 0, 0, false⟩
      ∧ 0 < written.fmc.position ∧ 1 ≠ 0) := by decide

/-- A READY slot that holds the filemarks 3 to 5 before the drain pointer at 4. -/
def ringSlot : Slot := { state := .ready, dsn := 1, firstObject := some 3, objectCount := some 3, objectAfter := some 6,
                         entries := [.filemark, .filemark, .filemark] }

def ringTape : State := { written with dbf.readRing := [ringSlot], dbf.direction := .read }

theorem witness_SpaceAndLocateSearch_ring :
    (Served 1 ringTape ∧ ringTape.wch.endOfMediumStop = false ∧ suspendedSlots ringTape = false ∧ writeSideEmpty ringTape = true
      ∧ ringTape.dbf.direction ≠ .write ∧ ringTape.fmc.directoryValid = true ∧ writerBusy ringTape = false)
    ∧ (5 < ringTape.fmc.eod.nextObject ∧ 5 ≤ 281474976710655 ∧ stopSlot 5 ringTape = some ringSlot ∧ ringSlot.state = .ready)
    ∧ (0 < 1 ∧ 1 ≤ 16777215 ∧ pointerInRing ringTape = true ∧ ringWalk .filemarks .forward 1 ringTape = some (5, none, 0)
      ∧ stopSlot 5 ringTape = some ringSlot)
    ∧ (let z : State := { ringTape with wch.writer := .ending, wch.eodCurrent := false, wch.eodPlan := some ⟨.idle, 1⟩ };
      Served 1 z ∧ writeSideEmpty z = true ∧ writerBusy z = true) := by decide

/-- A command answered early, with Immediate, whose work ends. -/
theorem witness_SpaceAndLocateSearch_immediate :
    (let z := { headIn (.locate 3 true) .moving tape with dlp.run.answered := true };
      z.dlp.queue = ⟨2, .locate 3 true⟩ :: [] ∧ z.dlp.run.answered = true ∧ z.dlp.run.mute = false)
    ∧ (written.fmc.eod.nextObject ≤ 10 ∧ 10 ≤ 281474976710655)
    ∧ (written.fmc.directoryValid = true ∧ written.moc.motion = .stopped ∧ written.moc.operation = none) := by decide

theorem witness_RewindAndRebuildBegin_abort :
    (let z := { headIn (.rewind true) .moving tape with dlp.run.answered := true };
      Open 1 z ∧ (2 : Tag) ≠ 1 ∧ z.dlp.tags.contains 2 = true ∧ z.cah.question = none ∧ z.dlp.queue = ⟨2, .rewind true⟩ :: []
        ∧ z.dlp.run.mute = false ∧ z.dlp.run.aborting = false ∧ z.dlp.run.answered = true ∧ z.dlp.run.phase = .moving
        ∧ z.events.length = 25) := by decide

theorem witness_RewindAndRebuildBegin :
    (let z : State := { tape with moc.restsFor := some botPlace };
      Served 1 z ∧ z.wch.endOfMediumStop = false ∧ suspendedSlots z = false ∧ writeSideEmpty z = true ∧ writerBusy z = false
        ∧ z.dbf.direction = .neutral ∧ z.dbf.readRing = [] ∧ standsAtBot z = true)
    ∧ (Served 1 written ∧ written.wch.endOfMediumStop = false ∧ suspendedSlots written = false ∧ writeSideEmpty written = true
      ∧ writerBusy written = false ∧ written.dbf.direction = .neutral ∧ written.dbf.readRing = [] ∧ written.moc.motion = .stopped
      ∧ written.moc.operation = none ∧ written.moc.restsFor ≠ some botPlace) := by decide

theorem witness_MediaCommandsBegin :
    (HeadFree 1 tape ∧ tape.wch.report = none ∧ tape.cah.state = .threaded ∧ tape.wch.endOfMediumStop = false
      ∧ suspendedSlots tape = false ∧ writeSideEmpty tape = true ∧ writerBusy tape = false ∧ tape.dbf.direction = .neutral
      ∧ tape.moc.motion = .stopped ∧ tape.moc.operation = none)
    ∧ (HeadFree 1 ready ∧ ready.wch.report = none ∧ ready.cah.state = .empty ∧ ready.cah.holder = .library)
    ∧ (HeadFree 1 loaded ∧ loaded.wch.report = none ∧ (loaded.cah.state = .negotiated ∨ loaded.cah.state = .held)
      ∧ cleaningCartridge loaded = false ∧ loaded.cah.mode ≠ some .incompatible ∧ loaded.cah.stack = [] ∧ loaded.cah.holder = .link)
    ∧ (let z : State := { loaded with cah.state := .held, cah.mode := some .incompatible };
      HeadFree 1 z ∧ z.wch.report = none ∧ (z.cah.state = .negotiated ∨ z.cah.state = .held) ∧ cleaningCartridge z = false
        ∧ z.cah.mode = some .incompatible) := by decide

theorem witness_MediaCommandsBegin_tape :
    (let z : State := { tape with wch.writer := .ending, wch.eodCurrent := false, wch.eodPlan := some ⟨.idle, 1⟩ };
      HeadFree 1 z ∧ z.wch.report = none ∧ z.cah.state = .threaded ∧ z.dbf.direction = .neutral ∧ writeSideEmpty z = true
        ∧ z.wch.endOfMediumStop = false ∧ suspendedSlots z = false ∧ writerBusy z = true)
    ∧ (HeadFree 1 busy ∧ busy.cah.state = .threaded ∧ writeSideEmpty busy = false
      ∧ writerBusy (discardAndClear (taken 1 (.unthread true) busy)) = false)
    ∧ (ready.dlp.run.phase ≠ .notBegun ∨ ready.dlp.queue = [])
    ∧ ((queued 1).dlp.run.phase = .notBegun ∧ (queued 1).dlp.queue = ⟨9, .flush⟩ :: []) := by decide

/-! ## Witnesses: the cartridge -/

/-- A cartridge seated, its memory being read for the `n`th time. -/
def seated (n : Nat) (c : Cartridge) : State := { ready with
  cah.state := .seated, cah.cartridge := some c, cah.sensedType := some c.notch, cah.cmReadAttempt := some n }

/-- A cleaning cartridge with `n` uses. -/
def cleaner (n : Nat) : Cartridge := ⟨.cleaning, false, { memory with cartType := .cleaning, remainingUses := n }⟩

theorem witness_CartridgeIsSeatedAndNegotiated :
    loaded.cah.state ≠ .empty ∧ ready.cah.state = .empty
    ∧ ((seated 2 cart).cah.state = .seated ∧ (seated 2 cart).cah.cmReadAttempt = some 2 ∧ 2 < 3)
    ∧ (let z : State := { seated 1 cart with cah.cmReadAttempt := none };
      z.cah.state = .seated ∧ z.cah.cmReadAttempt = none)
    ∧ (∀ c ∈ [cart, { cart with memory := { memory with level := 3, sessionOpen := true } }, { cart with memory := { memory with level := 5 } },
        cleaner 0, cleaner 1],
      (seated 3 c).cah.state = .seated ∧ (seated 3 c).cah.cmReadAttempt = some 3 ∧ (seated 3 c).cah.cartridge = some c
        ∧ (seated 3 c).cah.recovering = false ∧ (seated 3 c).lbp.waiting = none ∧ (seated 3 c).cah.autoThread = false
        ∧ (seated 3 c).events.length = 25 ∧ (seated 3 c).frg.condition = .ready)
    ∧ ({ seated 3 (cleaner 1) with frg.condition := .faulted } : State).frg.condition ≠ .ready
    ∧ ((seated 3 cart).cah.cmReadAttempt = some 3 ∧ (seated 3 cart).cah.sensedType = some .data ∧ (seated 3 cart).frg.current = none)
    ∧ ((seated 3 (cleaner 1)).cah.cmReadAttempt = some 3 ∧ (seated 3 (cleaner 1)).cah.sensedType = some .cleaning)
    ∧ (∀ c ∈ [cart, cleaner 0, cleaner 1],
      let z : State := { seated 1 c with cah.recovering := true, frg.condition := .recovering };
      z.cah.state = .seated ∧ z.cah.cmReadAttempt = some 1 ∧ z.cah.cartridge = some c ∧ z.cah.recovering = true ∧ z.lbp.waiting = none
        ∧ z.events.length = 25)
    ∧ (memory.directory = [] ∧ memory.eod.lastDsn = none
      ∧ ({ memory with directory := [⟨0, 0, 1, 0, 0, false⟩] } : CmImage).directory ≠ [])
    ∧ (memory.cartType = .data ∧ memory.level = 4 ∧ memory.sessionOpen = false)
    ∧ ((cleaner 1).memory.cartType = .cleaning ∧ 0 < (cleaner 1).memory.remainingUses ∧ (cleaner 0).memory.remainingUses = 0) := by
  decide

/-- A cleaning pass in one of its steps. -/
def cleaningIn (x : CleaningStep) : State := { ready with
  cah.state := .cleaning, cah.cartridge := some (cleaner 1), cah.image := some (cleaner 0).memory, cah.cleaningStep := some x }

theorem witness_CleaningPassRuns :
    (let z : State := { ready with cah.state := .negotiated, cah.image := some (cleaner 1).memory };
      z.cah.state = .negotiated ∧ z.frg.condition = .ready ∧ z.cah.image = some (cleaner 1).memory
        ∧ (cleaner 1).memory.cartType = .cleaning ∧ 0 < (cleaner 1).memory.remainingUses)
    ∧ ready.cah.cleaningStep ≠ some .decrement ∧ ready.cah.cleaningStep ≠ some .run
    ∧ ((cleaningIn .decrement).cah.cleaningStep = some .decrement ∧ (cleaningIn .decrement).cah.cartridge = some (cleaner 1)
      ∧ (cleaningIn .decrement).cah.image = some (cleaner 0).memory ∧ (cleaningIn .decrement).cah.aborted = false
      ∧ (cleaningIn .decrement).cah.stack = [] ∧ (cleaningIn .decrement).frg.current = none)
    ∧ ({ cleaningIn .decrement with cah.aborted := true } : State).cah.aborted = true
    ∧ (let z : State := { cleaningIn .run with moc.motion := .streaming, moc.work := .cleaningRun };
      z.cah.cleaningStep = some .run ∧ z.moc.motion = .streaming ∧ z.moc.operation = none ∧ z.moc.work = .cleaningRun)
    ∧ (let z : State := { cleaningIn .unthread with cah.unwind := some .cleaningDone };
      z.cah.unwind = some .cleaningDone ∧ z.cah.aborted = false ∧ z.events.length = 25) := by decide

/-- A push or a pop of a stage in progress over a stack. -/
def staging (st : Stage) (push : Bool) (n : Nat) (below : List Stage) : State := { loaded with
  cah.state := .threading, cah.stack := below, cah.stageWork := some ⟨st, push, n, 0⟩ }

theorem witness_ThreadStackPushesAndPops :
    loaded.cah.stageWork = none
    ∧ ((staging .seatLock true 1 []).cah.stageWork = some ⟨.seatLock, true, 1, 0⟩
      ∧ stageOrder.drop ((staging .seatLock true 1 []).cah.stack.length + 1) = .grip :: [.draw, .wrap, .tension, .acquire])
    ∧ ((staging .wrap true 1 [.seatLock, .grip, .draw]).cah.stageWork = some ⟨.wrap, true, 1, 0⟩
      ∧ stageOrder.drop ((staging .wrap true 1 [.seatLock, .grip, .draw]).cah.stack.length + 1) = .tension :: [.acquire]
      ∧ Stage.wrap ≠ .tension ∧ Stage.wrap ≠ .acquire ∧ Stage.tension ≠ .acquire)
    ∧ ((staging .tension true 1 [.seatLock, .grip, .draw, .wrap]).cah.stageWork = some ⟨.tension, true, 1, 0⟩
      ∧ (staging .tension true 1 [.seatLock, .grip, .draw, .wrap]).cah.stack = [.seatLock, .grip, .draw, .wrap])
    ∧ ((staging .grip true 2 [.seatLock]).cah.stageWork = some ⟨.grip, true, 2, 0⟩
      ∧ (staging .grip true 2 [.seatLock]).cah.recovering = false ∧ 2 < stageAttempts .grip ∧ Stage.grip ≠ .acquire)
    ∧ (let n := stageAttempts .draw;
      (staging .draw true n [.seatLock, .grip]).cah.stageWork = some ⟨.draw, true, n, 0⟩ ∧ stageAttempts .draw ≤ n
        ∧ (staging .draw true n [.seatLock, .grip]).cah.cleaningStep = none
        ∧ (staging .draw true n [.seatLock, .grip]).moc.operation = none ∧ Stage.draw ≠ .acquire
        ∧ (staging .draw true n [.seatLock, .grip]).cah.stack = [.seatLock] ++ [.grip])
    ∧ ((staging .grip false 1 [.seatLock, .grip]).cah.stageWork = some ⟨.grip, false, 1, 0⟩ ∧ Stage.grip ≠ .tension
      ∧ (staging .grip false 1 [.seatLock, .grip]).cah.stack = [] ++ [.seatLock, .grip] ∧ loaded.events.length = 25)
    ∧ (let z : State := { staging .seatLock false 1 [.seatLock] with cah.unwind := some .unthread };
      z.cah.stageWork = some ⟨.seatLock, false, 1, 0⟩ ∧ z.cah.stack = [.seatLock] ∧ z.cah.unwind = some .unthread
        ∧ z.cah.mediaOp = none ∧ z.dlp.queue = [] ∧ z.frg.current = none) := by decide

/-- The Acquire stage of a thread, its `n`th attempt in progress. -/
def acquiring (n : Nat) : State := staging .acquire true n [.seatLock, .grip, .draw, .wrap, .tension]

theorem witness_ThreadStackPushesAndPops_acquire :
    ((acquiring 1).cah.stageWork = some ⟨.acquire, true, 1, 0⟩ ∧ acquired (acquiring 1) = false ∧ (acquiring 1).cah.recovering = false
      ∧ 1 < 3)
    ∧ (let z : State := { acquiring 3 with moc.motion := .stopped };
      z.cah.stageWork = some ⟨.acquire, true, 3, 0⟩ ∧ z.cah.recovering = false ∧ 3 ≤ 3 ∧ z.cah.cleaningStep = none
        ∧ z.cah.stack = [.seatLock, .grip, .draw, .wrap, .tension] ∧ z.moc.motion = .stopped ∧ z.moc.operation = none
        ∧ z.events.length = 25)
    ∧ (let z : State := { acquiring 3 with
        moc.motion := .streaming, moc.operation := some ⟨.acquiring, none, [.markRun, .ramp (some 0)], false⟩ };
      z.cah.stageWork = some ⟨.acquire, true, 3, 0⟩ ∧ z.moc.motion = .streaming
        ∧ z.moc.operation = some ⟨.acquiring, none, [.markRun, .ramp (some 0)], false⟩)
    ∧ (let z : State := { acquiring 3 with
        cah.stageWork := none, cah.unwind := some (.threadFailed .acquire)
        moc.motion := .ramping, moc.operation := some ⟨.stopping, none, [.ramp (some 0)], false⟩ };
      z.cah.stageWork = none ∧ z.cah.unwind = some (.threadFailed .acquire)
        ∧ z.cah.stack = [.seatLock, .grip, .draw, .wrap] ++ [.tension]
        ∧ z.moc.operation = some ⟨.stopping, none, [.ramp (some 0)], false⟩ ∧ z.moc.waiting = none) := by decide

theorem witness_ThreadStackPushesAndPops_pop :
    ((staging .tension false 1 [.seatLock, .grip, .draw, .wrap, .tension]).cah.stageWork = some ⟨.tension, false, 1, 0⟩
      ∧ (staging .tension false 1 [.seatLock, .grip, .draw, .wrap, .tension]).cah.stack = [.seatLock, .grip, .draw, .wrap, .tension])
    ∧ (∀ op ∈ [(⟨.eject, .library, false⟩ : MediaOp), ⟨.unthread, .link 2, false⟩],
      let z : State := { headIn (.unthread false) .unthreading (staging .seatLock false 1 [.seatLock]) with
        cah.unwind := some .unthread, cah.mediaOp := some op };
      z.cah.stageWork = some ⟨.seatLock, false, 1, 0⟩ ∧ z.cah.stack = [.seatLock] ∧ Stage.seatLock ≠ .tension
        ∧ z.cah.unwind = some .unthread ∧ z.cah.mediaOp = some op ∧ z.dlp.queue = [⟨2, .unthread false⟩]
        ∧ z.dlp.run = { phase := .unthreading } ∧ z.dlp.link = .up ∧ z.events.length = 25) := by decide

theorem witness_ThreadCompletionSetsEveryBlock :
    (let z : State := { acquiring 1 with moc.motion := .stopped, moc.marks := 4 };
      z.cah.stageWork = some ⟨.acquire, true, 1, 0⟩ ∧ z.cah.stack = [.seatLock, .grip, .draw, .wrap, .tension]
        ∧ z.cah.recovering = false ∧ z.cah.cleaningStep = none ∧ z.cah.image = some memory ∧ z.dlp.run.answered = false
        ∧ z.moc.motion = .stopped ∧ z.moc.operation = none ∧ 4 ≤ z.moc.marks
        ∧ z.events.length = 25) := by decide

theorem witness_CartridgeMemoryIsWritten :
    (tape.cah.sessionOpenWrite = none ∧ tape.cah.writeBackWaits = false ∧ tape.cah.writeBack = false)
    ∧ (∀ n ∈ [1, 2, 3],
      let z : State := { tape with cah.sessionOpenWrite := some n };
      z.cah.sessionOpenWrite = some n ∧ z.cah.writeBackWaits = false ∧ z.cah.cartridge = some cart ∧ z.cah.state = .threaded
        ∧ z.events.length = 25)
    ∧ 2 < 3
    ∧ (let z : State := { tape with cah.writeBack := true, cah.state := .unthreading };
      z.cah.writeBack = true ∧ z.cah.cartridge = some cart ∧ z.cah.image = some memory
        ∧ z.cah.stack = [.seatLock, .grip, .draw, .wrap, .tension] ++ [.acquire] ∧ z.moc.operation = none ∧ z.frg.current = none)
    ∧ tape.fmc.directoryValid = true ∧ ready.fmc.directoryValid = false := by decide

/-- An Eject at the head, its push in progress. -/
def ejecting : State := { loaded with
  cah.state := .ejecting, cah.pushing := true, dlp.queue := [⟨1, .eject⟩], dlp.tags := [1], dlp.run := { phase := .ejecting } }

theorem witness_EjectEmptiesTheDrive : ready.cah.pushing = false
    ∧ (ejecting.cah.pushing = true ∧ ejecting.events.length = 25 ∧ ejecting.dlp.queue = [⟨1, .eject⟩]
      ∧ ejecting.dlp.run = { phase := .ejecting } ∧ ejecting.dlp.link = .up) := by decide

/-- `EjectEmptiesTheDrive` answers the Eject at the head, seen here. -/
theorem test_eject_answered : (ejectDone ejecting).out.getLast? = some (.reply 1 goodReply) ∧ (ejectDone ejecting).dlp.queue = [] := by decide

/-! ## Witnesses: motion, the head, the governor -/

/-- A tape with an operation of some work, aim and plan. -/
def moving (w : Work) (aim : Option Place) (plan : List Phase) : State := { tape with
  moc.motion := .ramping, moc.operation := some ⟨w, aim, plan, false⟩ }

theorem witness_RestTensionAndOverrun :
    (tape.moc.motion = .stopped ∧ tape.moc.operation = none ∧ tape.moc.motion.moving = false ∧ tape.moc.motionTime < 1000000)
    ∧ ready.moc.motion ≠ .stopped
    ∧ (({ tape with moc.motion := .streaming } : State).moc.motion.moving = true
      ∧ 1000000 ≤ ({ tape with moc.motionTime := 1000000 } : State).moc.motionTime)
    ∧ (let z := moving .writing (some botPlace) [.retension, .backhitch];
      z.moc.operation = some ⟨.writing, some botPlace, .retension :: .backhitch :: [], false⟩ ∧ runningPhase z = some .retension
        ∧ z.rch.trail = [] ∧ z.wch.voidTags = [])
    ∧ (tape.moc.operation = none ∧ tape.cah.recovering = false)
    ∧ (timedOperation (moving .rewinding (some botPlace) [.seek]) = true ∧ tape.events.length = 25)
    ∧ timedOperation (moving .acquiring none [.markRun, .ramp (some 0)]) = false ∧ threadAcquires (acquiring 1) = true
    ∧ (cleaningIn .run).cah.cleaningStep ≠ none := by decide

theorem witness_MotionPhasesEndAndFollow :
    (tape.rch.trail = [] ∧ tape.wch.voidTags = [] ∧ tape.cah.unwind = none)
    ∧ (let z := moving .stopping none [.ramp (some 0)];
      z.moc.operation = some ⟨.stopping, none, [.ramp (some 0)], false⟩ ∧ z.moc.waiting = none)
    ∧ (let z : State := { moving .writing (some tape.wch.nextPlace) [.ramp (some 3)] with wch.writer := .starting };
      z.moc.operation = some ⟨.writing, some z.wch.nextPlace, [.ramp (some (2 + 1))], false⟩ ∧ z.wch.writer = .starting
        ∧ z.moc.waiting = none ∧ z.rch.scan = none)
    ∧ (Work.collecting ≠ .scanning ∧ Phase.markRun ∉ ([] : List Phase))
    ∧ (∀ p ∈ [Phase.backhitch, .turnaround],
      (moving .collecting (some ⟨95, 97000000⟩) [p, .ramp none]).moc.operation
        = some ⟨.collecting, some ⟨95, 97000000⟩, p :: .ramp none :: [], false⟩)
    ∧ (∀ m ∈ [Motion.seeking, .ramping],
      let z : State := { moving .collecting (some ⟨95, 97000000⟩) [.seek, .ramp none] with moc.motion := m, moc.step := 7 };
      z.moc.operation = some ⟨.collecting, some ⟨95, 97000000⟩, .seek :: .ramp none :: [], false⟩ ∧ z.moc.step = 7 ∧ z.moc.motion = m)
    ∧ (let z : State := { moving .collecting (some ⟨95, 97000000⟩) [.seek, .ramp none] with moc.step := 6 };
      z.moc.motion = .ramping ∧ z.moc.step ≠ 7 ∧ seekAtSpeed z = false ∧ runningPhase z ≠ some .slowRun)
    ∧ (let z : State := { moving .rewinding (some botPlace) [.seek] with
        moc.step := 7
        dlp.queue := [⟨1, .rewind false⟩], dlp.tags := [1], dlp.run := { phase := .moving } };
      z.moc.operation = some ⟨.rewinding, some botPlace, [.seek], false⟩ ∧ z.moc.waiting = none ∧ z.moc.step = 7
        ∧ z.moc.motion = .ramping
        ∧ z.dlp.queue = [⟨1, .rewind false⟩] ∧ z.dlp.run = { phase := .moving } ∧ z.dlp.link = .up)
    ∧ tape.moc.operation = none := by decide

/-- A tape that streams, so that the servo watch is armed. -/
def streaming : State := { tape with moc.motion := .streaming, moc.step := 3 }

theorem witness_ServoMarksAndTheirLoss :
    (tape.cah.stageWork = none ∧ marksPass tape = false ∧ servoArmed tape = false)
    ∧ (marksPass streaming = true ∧ servoArmed streaming = true ∧ runningPhase streaming ≠ some .markRun ∧ streaming.cah.cleaningStep = none
      ∧ streaming.cah.stageWork = none ∧ streaming.moc.servoLost = 0 ∧ streaming.wch.window = [] ∧ streaming.wch.voidTags = []
      ∧ streaming.rch.trail = [])
    ∧ (let z : State := { streaming with moc.servoLost := 1 };
      z.cah.stageWork = none ∧ servoArmed z = true ∧ z.moc.servoLost ≠ 0 ∧ z.frg.current = none ∧ z.events.length = 25) := by decide

/-- A tape in the mark run of a reacquisition, with `n` marks read. -/
def markRun (n : Nat) : State := { streaming with
  moc.step := 1
  moc.marks := n
  moc.lpos := none
  moc.operation := some ⟨.collecting, some ⟨0, 1000164⟩, [.markRun, .ramp (some 0)], true⟩ }

theorem witness_ServoMarksAndTheirLoss_run :
    (marksPass (markRun 2) = true ∧ runningPhase (markRun 2) = some .markRun ∧ (markRun 2).moc.marks < 3
      ∧ (markRun 2).cah.cleaningStep = none)
    ∧ (marksPass (markRun 3) = true ∧ 3 ≤ (markRun 3).moc.marks ∧ (markRun 3).moc.step ≠ 0
      ∧ (markRun 3).moc.operation = some ⟨.collecting, some ⟨0, 1000164⟩, .markRun :: .ramp (some 0) :: [], true⟩)
    ∧ (runningPhase streaming ≠ some .seek ∧ threadAcquires streaming = false ∧ streaming.moc.operation = none)
    ∧ (let z : State := { acquiring 1 with
        moc.motion := .streaming, moc.step := 1, moc.operation := some ⟨.acquiring, none, [.markRun, .ramp (some 0)], false⟩ };
      threadAcquires z = true ∧ servoArmed z = true) := by decide

theorem witness_LevelOnlyRises :
    (let z : State := { tape with hcm.hci := 59, hcm.motionSeconds := 539999 };
      (levelOf z.hcm.hci z.hcm.motionSeconds).rank ≤ z.hcm.level.rank)
    ∧ (let z : State := { tape with hcm.hci := 250 };
      z.hcm.level.rank < (levelOf z.hcm.hci z.hcm.motionSeconds).rank ∧ z.events.length = 25)
    ∧ (let z : State := { tape with hcm.hci := 249 };
      z.hcm.level.rank < (levelOf z.hcm.hci z.hcm.motionSeconds).rank ∧ levelOf z.hcm.hci z.hcm.motionSeconds ≠ .critical) := by decide

theorem witness_SampleMovesTheIndex : ready.hcm.hci ≤ 1000 ∧ 1000 ≤ 1000 ∧ 0 = 0
    ∧ (headSample 0 { ready with hcm.hci := 1 }).hcm.hci = 0 := by decide

theorem witness_SmoothedFiguresFollowRatioAndRate : 1000 ≤ 1000 ∧ 999 < 1000
    ∧ (256 ≤ ({} : Sgv).crs ∧ ({} : Sgv).crs ≤ 8192) ∧ (∀ h, ({} : Sgv).hs = some h → h ≤ 320000) :=
  ⟨by decide, by decide, by decide, fun h e => by cases e⟩

theorem witness_CandidateIsTheLowestStepWithinTheCap : 0 < 256 ∧ 320000 * 256 ≤ 320000 * 256 ∧ 1 ≤ 1 ∧ 1 < lowestStep 320000
    ∧ (({} : Sgv).hs = none ∧ ({ hs := some 0 } : Sgv).hs = some 0) := by decide

theorem witness_TargetChangesAfterTwoEvaluations : 3 = ({} : Sgv).target
    ∧ (4 ≠ ({} : Sgv).target ∧ ({ pendingTarget := some 4, pendingCount := 1 } : Sgv).pendingTarget = some 4
      ∧ ({ pendingTarget := some 4, pendingCount := 1 } : Sgv).pendingCount = 1)
    ∧ (¬(({} : Sgv).pendingTarget = some 4 ∧ ({} : Sgv).pendingCount = 1) ∧ ({} : Sgv).pendingTarget ≠ some 4)
    ∧ (4 ≤ 4 ∧ ({} : Sgv).target ≤ 4) := by decide

/-! ## Witnesses: data on its way to and from the tape -/

theorem witness_TokenFillDecodes : (tokenFill 16 [] [1, 2, 3]).overflow = false := by decide

theorem witness_FormedPartDecodes :
    formPart true true 16 3 [] [7, 7, 7] = .part .stored [7, 7, 7] [.raw 7, .raw 7, .raw 7] false
    ∧ formPart false true 1 2 [] [7, 8] = .part .stored [7] [.raw 7] false
    ∧ formPart true false 16 8 [] [7, 7, 7, 7, 7, 7, 7, 7] = .part .stored [7, 7, 7, 7, 7, 7, 7, 7] (List.replicate 8 (.raw 7)) true := by
  decide

/-- An open data set, and a tape on which one record of two bytes waits for the engine. -/
def filling : Slot := { state := .filling, dsn := 0, firstObject := some 0 }

def packing : State := { tape with
  cpe.intake := [.record 1 2 2 0 none true false]
  dbf.staging := [⟨1, [5, 6]⟩]
  dbf.writeRing := [filling]
  dbf.direction := .write
  dlp.creditsOut := 31 }

/-- A data set of which frames are being issued. -/
def issuing : Slot := { state := .writing, dsn := 0, firstObject := some 0, entries := [.part ⟨2, 2, .stored, true, true⟩],
                        payload := [.raw 5, .raw 6], nextIndex := 1, startPlace := some ⟨0, 1000000⟩ }

def writing : State := { streaming with
  wch.writer := .writing
  wch.nextTag := 31
  wch.nextPlace := ⟨0, 1000164⟩
  wch.eodCurrent := false
  wch.sessionStarted := true
  moc.work := .writing
  rch.duty := .verify
  dbf.writeRing := [issuing]
  dbf.direction := .write }

/-- A frame that has passed the write head and is met by the read head. -/
def verifying (attempt : Nat) (void : List Nat) : State := { writing with
  rch.trail := [(⟨0, 1000000⟩, 5)]
  wch.window := [⟨5, .data, some 0, some 1, attempt, ⟨0, 1000000⟩⟩]
  wch.voidTags := void }

theorem witness_ARecordGoesToTape :
    ((packing.cpe.engine = .idle ∨ packing.cpe.engine = .packing) ∧ engineBlocked packing = false
      ∧ packing.cpe.intake = .record 1 2 2 0 none true false :: [] ∧ 0 < 2 ∧ packing.dbf.staging = [⟨1, [5, 6]⟩]
      ∧ packing.cpe.forming = [] ∧ fillingSlot packing = some filling ∧ packing.cpe.compressThisSet = false
      ∧ sumStored filling.entries + 2 ≤ 1048576 ∧ filling.entries.length < 8191 ∧ packing.dlp.link = .up ∧ packing.dlp.creditsOut = 31)
    ∧ (writingNow writing = true ∧ writing.wch.eodPlan = none ∧ writing.wch.wrapPhase = .open_ ∧ frameRoom writing.wch.nextPlace = true
      ∧ mayIssue writing = true ∧ writing.wch.abandon = none ∧ writing.wch.rewriteQueue = [] ∧ nextCandidate writing = some issuing
      ∧ 0 < issuing.nextIndex ∧ issuing.state = .writing)
    ∧ writingNow tape = false
    ∧ (let z : State := { writing with dbf.writeRing := [{ issuing with state := .pending, nextIndex := 0 }] };
      writingNow z = true ∧ takesSlot z = true ∧ z.events.length = 25 ∧ z.frg.current = none)
    ∧ tape.rch.trail = []
    ∧ ((verifying 3 [5]).rch.trail = (⟨0, 1000000⟩, 5) :: [] ∧ 5 ∈ (verifying 3 [5]).wch.voidTags)
    ∧ (let e : WinEntry := ⟨5, .data, some 0, some 1, 3, ⟨0, 1000000⟩⟩;
      (verifying 3 []).rch.trail = (⟨0, 1000000⟩, 5) :: [] ∧ 5 ∉ (verifying 3 []).wch.voidTags
        ∧ (verifying 3 []).wch.window.find? (fun e => e.tag == 5) = some e ∧ e.kind = .data ∧ e.dsn = some 0 ∧ e.index = some 1
        ∧ e.attempt < 4 ∧ verdictGood 5 .unreadable = false ∧ (verifying 3 []).wch.rewriteQueue.length < 16
        ∧ verdictGood 5 (.readable (.payload 5 0 1 [])) = true
        ∧ ∀ d ∈ (verifying 3 []).dbf.writeRing, d.good.length < 32 ∧ 1 ∉ d.good) := by decide

/-- A data set whose frame 0 is about to be issued at a place. -/
def beginning (p : Place) : State := { writing with
  dbf.writeRing := [{ issuing with state := .pending, nextIndex := 0, startPlace := none }]
  wch.nextPlace := p }

theorem witness_ARecordGoesToTape_begin :
    (let d : Slot := { issuing with state := .pending, nextIndex := 0, startPlace := none };
      let z := beginning ⟨0, 1000000⟩;
      writingNow z = true ∧ z.wch.eodPlan = none ∧ z.wch.wrapPhase = .open_ ∧ mayIssue z = true ∧ frameRoom z.wch.nextPlace = true
        ∧ z.wch.abandon = none ∧ z.wch.rewriteQueue = [] ∧ nextCandidate z = some d ∧ d.nextIndex = 0
        ∧ frameZeroOk d.dsn z.dbf.writeRing = true ∧ dataSetRoom ≤ remaining z.wch.nextPlace ∧ z.moc.step = z.sgv.target)
    ∧ (let z : State := { beginning ⟨0, 1000000⟩ with wch.sessionStarted := false };
      z.wch.sessionStarted = false ∧ z.cah.sessionOpenMarked = false)
    ∧ (let z : State := { beginning ⟨95, 1002000⟩ with wch.eodCurrent := true };
      frameRoom z.wch.nextPlace = true ∧ remaining z.wch.nextPlace < dataSetRoom ∧ lastWrap z ≤ z.wch.nextPlace.wrap ∧ z.rch.trail = []
        ∧ z.wch.eodCurrent = true ∧ (∀ x ∈ z.dbf.writeRing, x.state ≠ .writing) ∧ z.dlp.queue = [] ∧ z.dlp.run.phase = .notBegun
        ∧ z.wch.report = none ∧ frameZeroOk 0 z.dbf.writeRing = true) := by decide

/-- The fourth attempt of a frame is met, its data set retried before or not, under a Write Records that receives or with none. -/
def failing (retried : Bool) : State := { verifying 4 [] with dbf.writeRing := [{ issuing with retried := retried }] }

theorem witness_ARecordGoesToTape_fail :
    (∀ r ∈ [false, true],
      (failing r).rch.trail = (⟨0, 1000000⟩, 5) :: [] ∧ 5 ∉ (failing r).wch.voidTags ∧ verdictGood 5 .unreadable = false
        ∧ (failing r).wch.window.find? (fun e => e.tag == 5) = some ⟨5, .data, some 0, some 1, 4, ⟨0, 1000000⟩⟩
        ∧ (4 ≤ 4 ∨ 16 ≤ (failing r).wch.rewriteQueue.length) ∧ writeSlot 0 (failing r) = some { issuing with retried := r }
        ∧ (failing r).dlp.queue = [] ∧ (failing r).dlp.run.phase = .notBegun ∧ (failing r).wch.report = none
        ∧ (failing r).events.length = 25)
    ∧ (let z := headIn (.writeRecords false [5]) .receiving { failing true with wch.eodCurrent := true };
      z.wch.eodCurrent = true ∧ z.dlp.queue = [⟨2, .writeRecords false [5]⟩] ∧ z.dlp.run.phase = .receiving ∧ z.dlp.run.mute = false
        ∧ z.dlp.run.answered = false ∧ z.dlp.link = .up)
    ∧ [PSym.raw 5].length ≤ 32768 := by decide

/-- A permanent failure that meets a Write Records answers it: its reply is the last thing sent, and no report is left. -/
theorem test_failure_answers_write :
    (verifyFrame .unreadable (headIn (.writeRecords false [5]) .receiving { failing true with wch.eodCurrent := true })).out.length = 1
    ∧ (verifyFrame .unreadable (headIn (.writeRecords false [5]) .receiving { failing true with wch.eodCurrent := true })).wch.report = none
    := by decide

theorem witness_SettledDataSetCommits :
    (let d : Slot := { issuing with endPlace := some ⟨0, 1005248⟩, written := 33 };
      let z : State := { writing with dbf.writeRing := [d, filling] };
      z.dbf.writeRing = d :: [filling] ∧ d.endPlace = some ⟨0, 1005248⟩ ∧ d.firstObject = some 0) := by decide

/-- A tape whose data set 1 is being collected. -/
def collecting (held : List HeldFrame) : State := { streaming with
  moc.work := .collecting
  rch.duty := .collect
  rch.current := some { dsn := 1, held := held }
  dbf.readRing := [{ state := .reading, dsn := 1 }]
  dbf.direction := .read }

/-- The frames 0 to `n - 1` of a data set, as a collector holds them. -/
def heldFrames (n : Nat) : List HeldFrame := (List.range n).map (fun i => ⟨i, []⟩)

/-- Data set 1 in collection, its header held. -/
def collectingWith (h : Header) (c : Collector) (duty : Duty) : State := { collecting [] with
  rch.current := some { c with header := some h }, rch.duty := duty }

/-- A header of data set 1 that is consistent, and one that is not. -/
def goodHeader : Header := ⟨1, 0, 1, [.filemark]⟩

def badHeader : Header := ⟨1, 0, 2, [.filemark]⟩

theorem witness_FramesReadAndDecoded_complete :
    ∀ h ∈ [goodHeader, badHeader], ∀ d ∈ [Duty.collect, .recover],
      let c : Collector := { dsn := 1, held := heldFrames 32, header := some h };
      let z := collectingWith h c d;
      collectingNow z = true ∧ z.rch.current = some c ∧ z.dlp.run.aborting = false ∧ 32 ≠ 0 ∧ c.held.length = 32
        ∧ c.held.any (fun f => f.index == 32) = false ∧ c.header = some h ∧ z.dbf.readAheadActive = false ∧ z.rch.duty = d := by
  decide

theorem witness_FramesReadAndDecoded_header : goodHeader.consistent = true ∧ badHeader.consistent = false
    ∧ (collecting []).rch.expected = none ∧ ({ collecting [] with rch.expected := some 7 } : State).rch.expected = some 7
    ∧ 7 ≠ goodHeader.firstObject ∧ tape.events.length = 25
    ∧ (let z : State := { collecting [] with rch.duty := .recover, rch.lastEnd := some ⟨0, 1000000⟩ };
      z.rch.duty = .recover ∧ z.rch.lastEndFinal = false ∧ z.rch.lastEnd ≠ none) := by decide

theorem witness_FramesReadAndDecoded_ladder :
    (collectingNow (collecting []) = true ∧ 1 + 2 ≤ 3 ∧ (collecting []).rch.duty = .collect)
    ∧ (∀ n ∈ [1, 5, 6],
      let c : Collector := { dsn := 1, passNumber := n };
      let z : State := { collecting [] with rch.duty := .recover, rch.current := some c };
      collectingNow z = true ∧ z.rch.current = some c ∧ z.rch.duty = .recover ∧ 1 ≤ c.passNumber ∧ (c.passNumber < 6 ∨ c.passNumber = 6))
    ∧ (let c : Collector := { dsn := 1 };
      c.held = [] ∧ c.laterMet = false ∧ (collecting []).rch.next = none ∧ readExecuting (collecting []) = false) := by decide

theorem witness_FramesReadAndDecoded_window : (let z : State := { delivering 4096 with cpe.checked := false };
      drainingSlot z = some draining ∧ z.cpe.engine = .unpacking ∧ z.dlp.run.decoded = 0 ∧ z.dlp.run.partDone = 0) := by decide

theorem witness_FramesReadAndDecoded :
    collectingNow tape = false
    ∧ (collectingNow (collecting []) = true ∧ (collecting []).rch.current = some { dsn := 1 } ∧ (collecting []).moc.wrap = some 0
      ∧ ¬(remaining ⟨(collecting []).moc.wrap.getD 0, 96999672⟩ < 328)
      ∧ ({ dsn := 1 } : Collector).held.length < 32 ∧ ({ dsn := 1 } : Collector).held.any (fun f => f.index == 1) = false ∧ 0 < 1)
    ∧ (drainingSlot tape = none ∨ tape.cpe.checked = true)
    ∧ (let z : State := { delivering 4096 with cpe.checked := false };
      drainingSlot z = some draining ∧ z.cpe.checked = false ∧ (decodeDataSet draining.entries draining.payload).isSome = true
        ∧ z.events.length = 25)
    ∧ (let d : Slot := { draining with payload := [.raw 5] };
      let z : State := { delivering 4096 with cpe.checked := false, dbf.readRing := [d] };
      drainingSlot z = some d ∧ z.cpe.checked = false ∧ decodeDataSet d.entries d.payload = none) := by decide

/-- A Locate that scans for object 3. -/
def scanning : State := { written with
  dlp.queue := [⟨1, .locate 3 false⟩]
  dlp.tags := [1]
  dlp.run := { phase := .searching }
  moc.motion := .streaming
  moc.work := .scanning
  rch.duty := .scan
  rch.scan := some { goal := .object 3 } }

/-- A Rebuild pass that has accepted data set 0. -/
def rebuilding : State := { tape with
  dlp.queue := [⟨1, .rebuildDirectory⟩]
  dlp.tags := [1]
  dlp.run := { phase := .rebuilding }
  moc.motion := .streaming
  moc.work := .rebuilding
  rch.duty := .scan
  rch.rebuild := some { wasValid := false, expectedDsn := 1, expectedObject := 1, accepted := [⟨0, 0, 0, 1, 1, false, ⟨0, 1000000⟩, ⟨0, 1005248⟩⟩] } }

theorem witness_ScansMeetHeaders :
    (tape.dlp.run.aborting = false ∧ scanningNow tape = false ∧ rebuildingNow tape = false)
    ∧ (scanning.dlp.run.aborting = false ∧ scanningNow scanning = true ∧ scanning.rch.scan = some { goal := .object 3 }
      ∧ beyondEod 0 scanning = false ∧ (⟨0, 0, 4, List.replicate 4 .filemark⟩ : Header).holds 3 = true
      ∧ (⟨0, 0, 3, List.replicate 3 .filemark⟩ : Header).holds 3 = false ∧ (⟨0, 0, 3, List.replicate 3 .filemark⟩ : Header).passed 3 = false
      ∧ scanAtEnd true ⟨scanning.moc.wrap.getD 0, 1000000⟩ = false)
    ∧ ((⟨0, 0, 5, List.replicate 4 .filemark⟩ : Header).consistent = false
      ∧ (⟨0, 0, 4, List.replicate 4 .filemark⟩ : Header).consistent = true
      ∧ ({ goal := .object 3, due := some ⟨0, some 0, ⟨0, 1000000⟩⟩ } : Scan).due = some ⟨0, some 0, ⟨0, 1000000⟩⟩)
    ∧ (scanEodFor (some 7) { goal := .object 3 } scanning = .stale ∧ ({ goal := .object 3, forward := false } : Scan).forward = false
      ∧ eodValid (some 7) (some 0) = false)
    ∧ (let d : Slot := { state := .ready, dsn := 1, unrecoverable := some .unreadable };
      let z : State := { rebuilding with rch.duty := .idle, rch.collectFor := .rebuildHeader, dbf.readRing := [d] };
      z.rch.rebuild.isSome = true ∧ z.rch.duty = .idle ∧ z.rch.collectFor = .rebuildHeader ∧ z.dbf.readRing.getLast? = some d
        ∧ d.unrecoverable = some .unreadable ∧ z.dlp.run.mute = false ∧ z.dlp.run.answered = false)
    ∧ (∀ r ∈ rebuilding.rch.rebuild, rebuilding.dlp.run.aborting = false ∧ rebuildingNow rebuilding = true
      ∧ scanAtEnd true ⟨rebuilding.moc.wrap.getD 0, 1005412⟩ = false ∧ 7544 ≤ remaining ⟨rebuilding.moc.wrap.getD 0, 1005412⟩
      ∧ 1 = r.expectedDsn
      ∧ (⟨1, 1, 1, [.filemark]⟩ : Header).consistent = true ∧ 1 = r.expectedObject ∧ (∀ a ∈ r.accepted, a.dsn < r.expectedDsn)
      ∧ r.accepted = ⟨0, 0, 0, 1, 1, false, ⟨0, 1000000⟩, ⟨0, 1005248⟩⟩ :: [])
    ∧ (∀ r ∈ rebuilding.rch.rebuild, rebuilding.moc.wrap.getD 0 < lastWrap rebuilding
      ∧ remaining ⟨rebuilding.moc.wrap.getD 0, 96992457⟩ < 7544 ∧ 7544 ≤ remaining ⟨rebuilding.moc.wrap.getD 0, 96992456⟩
      ∧ scanAtEnd true ⟨rebuilding.moc.wrap.getD 0, 96992456⟩ = false ∧ r.blanks = 0)
    ∧ rebuilding.rch.rebuild.isSome = true ∧ rebuilding.events.length = 25 := by decide


/-! ## Points of the rules -/

/-- R32: an aborted record whose bytes were all in the part being formed waits no more, and a filemark behind it is placed. -/
theorem test_spent_record_leaves : (dropRecords 1 { packing with
    cpe.intake := [.record 1 9 2 0 none false false, .filemark 2], cpe.forming := [5, 6] }).cpe.intake = [.filemark 2] := by decide

/-- R30 and R33: a data set that opens with carried entries that fill its payload closes with no part added. -/
theorem test_full_carry_closes :
    ((openForPart (openForPart { packing with
      dbf.writeRing := []
      cpe.carryEntries := [.part ⟨1048576, 1048576, .stored, true, true⟩] })).dbf.writeRing.map (fun d => (d.state, d.entries.length)))
      = [(.pending, 1), (.filling, 0)] := by decide

/-- R146: custody is LIBRARY when the cartridge found in the drive is seated. -/
theorem test_found_cartridge_is_the_librarys :
    (findCartridge 0 { found with cah.holder := .link }).cah.holder = .library
      ∧ (findCartridge 0 { found with cah.holder := .link }).cah.state = .seated := by decide

/-- R173: the results of a Read Records, six bytes each, most significant first. -/
theorem test_result_bytes : resultBytes (.records 258 3) = [0, 0, 0, 0, 1, 2, 0, 0, 0, 0, 0, 3] := by decide

/-- R98: with the header of the data set being collected held, the next one begins where its copy was met. -/
theorem test_known_next :
    knownNext { collectingWith goodHeader { dsn := 1, header := some goodHeader } .collect with
      rch.next := some { dsn := 2, copyStart := some ⟨0, 1005412⟩ } } = some ⟨2, some 1, ⟨0, 1005412⟩⟩ := by decide

/-- R98: the Resume Place that the last pass of a ladder leaves is not known to lie before the next data set. -/
theorem test_known_next_after_ladder :
    let s : State := { tape with rch.nextDsn := some 2, rch.expected := some 5, rch.resume := some ⟨0, 1010824⟩ }
    knownNext s = some ⟨2, some 5, ⟨0, 1010824⟩⟩ ∧ knownNext { s with rch.lastEnd := some ⟨0, 1010824⟩ } = none := by decide

/-- R113: the ramp of an operation in progress takes the step of a request for its place, but not once it runs at another. -/
theorem test_operation_meets_request :
    metPlan ⟨.stream, .scanning, ⟨0, 0⟩, some 6⟩ 3 [.backhitch, .ramp none] = some [.backhitch, .ramp (some 6)]
      ∧ metPlan ⟨.stream, .collecting, ⟨0, 0⟩, none⟩ 3 [.ramp (some 3)] = some [.ramp (some 3)]
      ∧ metPlan ⟨.stream, .scanning, ⟨0, 0⟩, some 6⟩ 3 [.ramp (some 3)] = none := by decide

/-- R118: marks pass in the ramp to 0 after the four marks of a reacquisition, and not in the one before them. -/
theorem test_marks_pass_in_closing_ramp :
    let s (plan : List Phase) : State := { tape with moc.motion := .ramping, moc.operation := some ⟨.resetReacquire, none, plan, true⟩ }
    marksPass (s [.ramp (some 0)]) = true ∧ marksPass (s [.ramp (some 0), .backhitch, .ramp (some 1), .markRun]) = false := by decide

/-- R5, R19: object 2 begins in the void last part of DSN 4 and afresh in DSN 5. -/
def voidPart : Slot := {
  state := .ready
  dsn := 4
  firstObject := some 1
  objectAfter := some 2
  entries := [.filemark, .part ⟨9, 9, .stored, true, false⟩] }

/-- R19: the data set that begins the object with its first entry is the one overwritten, at its boundary, and the one before it then ends
with an unended part; with no sign of what follows the part, the slot is not known to be the one. -/
theorem test_overwrite_behind_void_part :
    let fresh : Slot := { state := .ready, dsn := 5, firstObject := some 2, objectAfter := some 3, entries := [.filemark] }
    slotHolding 2 { tape with dbf.readRing := [voidPart, fresh] } = some fresh
      ∧ unendedBefore 5 { tape with dbf.readRing := [voidPart, fresh] } = true
      ∧ unendedBefore 5 { tape with fmc.directory := [⟨0, 0, 4, 0, 0, true⟩, ⟨1, 5, 5, 2, 1, false⟩] } = true
      ∧ knownHolder 2 voidPart { tape with dbf.readRing := [voidPart] } = false := by decide

/-- R59: a Format Error whose header was read can be walked past. -/
theorem test_format_error_walked :
    let bad := Slot.lost .formatError { dsn := 1, header := some badHeader } { state := .reading, dsn := 1 }
    (walkable { tape with dbf.readRing := [bad] }).map (fun d => (d.firstObject, d.entries, d.unrecoverable))
      = [(some 0, [.filemark], some .formatError)] := by decide

/-- R72: a settled data set behind one that is not stays as it is when the wrap ends. -/
theorem test_settled_is_not_cut :
    let settled : Slot := { issuing with dsn := 1, good := List.range 33, nextIndex := 33 }
    (cutUnsettled { writing with dbf.writeRing := [{ issuing with good := [0] }, settled] }).dbf.writeRing.map (fun d => (d.cut, d.good.length))
      = [(true, 0), (false, 33)] := by decide

/-- R76: a failure met by a command that a Link Reset has ended is kept for the next reply. -/
theorem test_failure_of_ended_command_is_kept :
    let s : State := headIn (.writeRecords false [5]) .appendScan { tape with dlp.run.mute := true }
    (reportFailure ⟨.sessionOpen, none, 0, 0⟩ { s with dlp.run.mute := true }).wch.report = some ⟨.sessionOpen, none, 0, 0⟩ := by decide

/-- R138: the pops that a Motion Fault has kept from beginning begin with the next Abort. -/
theorem test_pops_begin_after_fault :
    (abortThread { loaded with cah.state := .threading, cah.unwind := some .threadAborted, cah.stack := [.grip] }).cah.stageWork.map
      (fun w => (w.stage, w.push)) = some (.grip, false) := by decide

/-- R19: the search for the append point passes over the void part of object 2, counts the filemark before it, and finds the data set that
begins the object afresh. -/
theorem test_append_scan_passes_void_part :
    let s : State := { tape with fmc.eod.lastDsn := some 5 }
    let h4 : SeenHeader := ⟨⟨4, 1, 2, voidPart.entries⟩, ⟨0, 1000000⟩⟩
    let h5 : SeenHeader := ⟨⟨5, 2, 1, [.filemark]⟩, ⟨0, 1005412⟩⟩
    let c : Scan := { goal := .append 2 0, last := some h4 }
    (stepAppend 2 0 { goal := .append 2 0 } h4 s).rch.scan = some c
      ∧ (stepAppend 2 0 c h5 s).rch.scan = some { c with goal := .append 2 1, last := some h5, unendedBefore := true } := by decide
end Sys2Proof.Tests
end

section
/-! SUPPORT. What the shared operations leave unchanged, block by block: one lemma per operation, whose parts `simp` uses as rewrite rules,
and what becomes of the latched events. -/

namespace Sys2Proof.Machine

variable (s : State)

/-! ## Events -/

/-- From `s` to `t` the Event Set keeps its length, and no event loses its latch. -/
def EventsRise (s t : State) : Prop :=
  t.events.length = s.events.length ∧ ∀ n, (flagsOf n s.events).latched = true → (flagsOf n t.events).latched = true

theorem EventFlags.latch_latched (f : EventFlags) : f.latch.latched = true := by
  unfold EventFlags.latch
  split
  · assumption
  · rfl

theorem EventsRise.refl : EventsRise s s := ⟨rfl, fun _ h => h⟩

variable {s}

theorem EventsRise.of_events_eq {t : State} (h : t.events = s.events) : EventsRise s t := ⟨by rw [h], fun _ => by rw [h]; exact id⟩

theorem EventsRise.trans {t u : State} (h1 : EventsRise s t) (h2 : EventsRise t u) : EventsRise s u :=
  ⟨h2.1.trans h1.1, fun n h => h2.2 n (h1.2 n h)⟩

/-- The flags of an event after a latch: they are latched where they stood, and where the event is the one latched. -/
theorem flagsOf_changeEvent_latch (n m : Nat) (es : List EventFlags) (hm : m - 1 < es.length) :
    flagsOf n (changeEvent m EventFlags.latch es) = if n - 1 = m - 1 then (flagsOf n es).latch else flagsOf n es := by
  unfold flagsOf changeEvent
  rw [List.getD_eq_getElem?_getD, List.getD_eq_getElem?_getD, List.getElem?_modify]
  by_cases e : m - 1 = n - 1
  · have hn : n - 1 < es.length := e ▸ hm
    simp [e, List.getElem?_eq_getElem hn]
  · simp [e, Ne.symm e]

theorem Event.number_range (e : Event) : 1 ≤ e.number ∧ e.number ≤ 25 := by cases e <;> decide

theorem latch_rises (e : Event) (s : State) : EventsRise s (latch e s) := by
  refine ⟨by simp [changeEvent], fun n h => ?_⟩
  by_cases hm : e.number - 1 < s.events.length
  · rw [latch_events, flagsOf_changeEvent_latch _ _ _ hm]
    split
    · exact EventFlags.latch_latched _
    · exact h
  · rwa [latch_events, changeEvent, List.modify_eq_self (by omega)]

/-- An event latched stays latched while the Event Set rises (R175). -/
theorem latched_after {e : Event} {t : State} (h : EventsRise (latch e s) t) (hl : s.events.length = 25) :
    (flagsOf e.number t.events).latched = true := by
  have hm : e.number - 1 < s.events.length := by have := e.number_range; omega
  apply h.2
  rw [latch_events, flagsOf_changeEvent_latch _ _ _ hm, if_pos rfl]
  exact EventFlags.latch_latched _

theorem latchAll_rises (es : List Event) (s : State) : EventsRise s (latchAll es s) := by
  unfold latchAll
  induction es generalizing s with
  | nil => exact .refl s
  | cons e es ih => exact (latch_rises e s).trans (ih _)

/-! ## The Motion Controller's operations -/

/-- `t` differs from `s` in the Motion Controller alone. -/
@[simp] abbrev MovesTapeOnly (s t : State) : Prop :=
  t.pending = s.pending ∧ t.out = s.out ∧ t.timeBase = s.timeBase ∧ t.jumpers = s.jumpers ∧ t.dlp = s.dlp ∧ t.lbp = s.lbp
    ∧ t.events = s.events ∧ t.dbf = s.dbf ∧ t.cpe = s.cpe ∧ t.fmc = s.fmc ∧ t.wch = s.wch ∧ t.rch = s.rch ∧ t.sgv = s.sgv
    ∧ t.cah = s.cah ∧ t.hcm = s.hcm ∧ t.pst = s.pst ∧ t.frg = s.frg

variable (s)

@[simp] theorem enterPhase_frame (op : Operation) : MovesTapeOnly s (enterPhase op s) := by
  unfold enterPhase
  dsimp only
  split <;> simp

@[simp] theorem stopTape_frame : MovesTapeOnly s (stopTape s) := by
  unfold stopTape
  dsimp only
  repeat' split
  all_goals simp

@[simp] theorem stopWriting_frame : MovesTapeOnly s (stopWriting s) := by
  unfold stopWriting
  dsimp only
  split
  · split <;> simp
  · split <;> simp

@[simp] theorem beginRequest_frame (r : MotionReq) : MovesTapeOnly s (beginRequest r s) := by
  simp [beginRequest]

@[simp] theorem request_frame (r : MotionReq) : MovesTapeOnly s (request r s) := by
  unfold request
  repeat' split
  all_goals simp

@[simp] theorem startStream_frame (w : Work) (p : Place) (k : Option Nat) : MovesTapeOnly s (startStream w p k s) := by
  simp [startStream]

@[simp] theorem startBackhitch_frame (w : Work) (p : Place) : MovesTapeOnly s (startBackhitch w p s) := by
  simp [startBackhitch]

@[simp] theorem settleMotion_frame : MovesTapeOnly s (settleMotion s) := by
  unfold settleMotion
  repeat' split
  all_goals simp

/-! ## Early Warning, the cap, the head condition, faults -/

/-- Early Warning's own flag and event are all that setting it changes (R10). -/
@[simp] theorem setEarlyWarning_frame : (setEarlyWarning s).out = s.out ∧ (setEarlyWarning s).timeBase = s.timeBase
    ∧ (setEarlyWarning s).dlp = s.dlp ∧ (setEarlyWarning s).lbp = s.lbp ∧ (setEarlyWarning s).dbf = s.dbf
    ∧ (setEarlyWarning s).cpe = s.cpe ∧ (setEarlyWarning s).wch = s.wch ∧ (setEarlyWarning s).rch = s.rch
    ∧ (setEarlyWarning s).moc = s.moc ∧ (setEarlyWarning s).sgv = s.sgv ∧ (setEarlyWarning s).cah = s.cah
    ∧ (setEarlyWarning s).hcm = s.hcm ∧ (setEarlyWarning s).pst = s.pst ∧ (setEarlyWarning s).frg = s.frg
    ∧ (setEarlyWarning s).fmc = { s.fmc with earlyWarning := earlyWarningAt s.fmc.eod } := by
  unfold setEarlyWarning
  dsimp only
  split <;> simp

theorem setEarlyWarning_rises : EventsRise s (setEarlyWarning s) := by
  unfold setEarlyWarning
  dsimp only
  split
  · exact (EventsRise.refl s).trans (latch_rises _ _)
  · exact .refl s

/-- A change of the cap can move the governor's target and Pending Target alone (R122). -/
@[simp] theorem applyCap_frame : (applyCap s).out = s.out ∧ (applyCap s).timeBase = s.timeBase
    ∧ (applyCap s).dlp = s.dlp ∧ (applyCap s).lbp = s.lbp ∧ (applyCap s).events = s.events ∧ (applyCap s).dbf = s.dbf
    ∧ (applyCap s).cpe = s.cpe ∧ (applyCap s).fmc = s.fmc ∧ (applyCap s).wch = s.wch ∧ (applyCap s).rch = s.rch
    ∧ (applyCap s).moc = s.moc ∧ (applyCap s).cah = s.cah ∧ (applyCap s).hcm = s.hcm ∧ (applyCap s).pst = s.pst
    ∧ (applyCap s).frg = s.frg := by
  unfold applyCap
  dsimp only
  split <;> simp

/-- Latches change the Event Set alone (R175). -/
@[simp] theorem latchAll_frame (es : List Event) : (latchAll es s).out = s.out ∧ (latchAll es s).timeBase = s.timeBase
    ∧ (latchAll es s).dlp = s.dlp ∧ (latchAll es s).lbp = s.lbp ∧ (latchAll es s).dbf = s.dbf ∧ (latchAll es s).cpe = s.cpe
    ∧ (latchAll es s).fmc = s.fmc ∧ (latchAll es s).wch = s.wch ∧ (latchAll es s).rch = s.rch ∧ (latchAll es s).moc = s.moc
    ∧ (latchAll es s).sgv = s.sgv ∧ (latchAll es s).cah = s.cah ∧ (latchAll es s).hcm = s.hcm ∧ (latchAll es s).pst = s.pst
    ∧ (latchAll es s).frg = s.frg := by
  unfold latchAll
  induction es generalizing s with
  | nil => simp
  | cons e es ih => simpa using ih (latch e s)

/-- A reported fault changes the Event Set, the store's writes and the Fault Register alone (R187, R188). -/
@[simp] theorem reportFault_frame (u : FaultUnit) (c : FaultCause) : (reportFault u c s).out = s.out
    ∧ (reportFault u c s).timeBase = s.timeBase ∧ (reportFault u c s).dlp = s.dlp ∧ (reportFault u c s).lbp = s.lbp
    ∧ (reportFault u c s).dbf = s.dbf ∧ (reportFault u c s).cpe = s.cpe ∧ (reportFault u c s).fmc = s.fmc
    ∧ (reportFault u c s).wch = s.wch ∧ (reportFault u c s).rch = s.rch ∧ (reportFault u c s).moc = s.moc
    ∧ (reportFault u c s).sgv = s.sgv ∧ (reportFault u c s).cah = s.cah ∧ (reportFault u c s).hcm = s.hcm := by
  unfold reportFault enterRecord copyRecord
  dsimp only
  repeat' split
  all_goals simp

/-- A rise of the Condition Level leaves the HCI, and every block that neither warns nor caps (R155, R156). -/
@[simp] theorem riseTo_frame (l : Level) : (riseTo l s).out = s.out ∧ (riseTo l s).dlp = s.dlp ∧ (riseTo l s).dbf = s.dbf
    ∧ (riseTo l s).cpe = s.cpe ∧ (riseTo l s).fmc = s.fmc ∧ (riseTo l s).wch = s.wch ∧ (riseTo l s).rch = s.rch
    ∧ (riseTo l s).cah = s.cah ∧ (riseTo l s).hcm.hci = s.hcm.hci := by
  unfold riseTo setConditionCap
  dsimp only
  split <;> simp

/-- A head sample moves the HCI as R153 gives, and leaves what a rise of the level leaves. -/
@[simp] theorem headSample_frame (n : Nat) : (headSample n s).out = s.out ∧ (headSample n s).dlp = s.dlp
    ∧ (headSample n s).dbf = s.dbf ∧ (headSample n s).cpe = s.cpe ∧ (headSample n s).fmc = s.fmc ∧ (headSample n s).wch = s.wch
    ∧ (headSample n s).rch = s.rch ∧ (headSample n s).cah = s.cah ∧ (headSample n s).hcm.hci = hciAfter s.hcm.hci n := by
  unfold headSample testLevel
  dsimp only
  split <;> simp

end Sys2Proof.Machine
end

section
/-! SUPPORT. The commit of a data set (R12, R13, R71, R152, R153). -/

namespace Sys2Proof.Machine

variable {s : State}

/-- Format Control's step at a commit moves the map to the data set's end, and Early Warning with it (R10, R12, R13). -/
theorem formatCommit_frame {d : Slot} {p : Place} {first : Nat} (hp : d.endPlace = some p) (hf : d.firstObject = some first) :
    (formatCommit d s).fmc = { s.fmc with
        directory := directoryCommit p.wrap d.dsn first s.fmc.filemarks (lastUnended d.entries) s.fmc.directory
        eod := ⟨p.wrap, p.next.lpos, some d.dsn, objectAfter first d.entries, lastUnended d.entries⟩
        filemarks := s.fmc.filemarks + countFilemarks d.entries
        committed := s.fmc.committed + countEnds (d.entries.drop d.carried)
        earlyWarning := earlyWarningAt ⟨p.wrap, p.next.lpos, some d.dsn, objectAfter first d.entries, lastUnended d.entries⟩ }
      ∧ (formatCommit d s).dbf = s.dbf ∧ (formatCommit d s).wch = s.wch ∧ (formatCommit d s).hcm = s.hcm
      ∧ (formatCommit d s).out = s.out := by
  simp [formatCommit, hp, hf]

/-- A commit is Format Control's step, the counts of the Write Channel, the slot freed and the sample of the head (R71). -/
theorem commitSlot_frame (d : Slot) : (commitSlot d s).fmc = (formatCommit d s).fmc
    ∧ (commitSlot d s).dbf.writeRing = (formatCommit d s).dbf.writeRing.drop 1
    ∧ (commitSlot d s).wch = { (formatCommit d s).wch with
        eodCurrent := false
        rewriteFrames := (formatCommit d s).wch.rewriteFrames + (d.written - 33)
        dataSetsCommitted := (formatCommit d s).wch.dataSetsCommitted + 1 }
    ∧ (commitSlot d s).hcm.hci = hciAfter (formatCommit d s).hcm.hci (sampleOf (d.written - 33))
    ∧ (commitSlot d s).out = (formatCommit d s).out := by
  simp [commitSlot]

/-- Settles O58: the commit's own step adds to what Format Control's step sets, field by field. -/
theorem settledDataSetCommits : Obligations.SettledDataSetCommits := by
  intro d rest p first s hring hplace hfirst
  obtain ⟨hfmc, hdbf, hwch, hhcm, hout⟩ := formatCommit_frame (s := s) hplace hfirst
  obtain ⟨cfmc, cring, cwch, chci, cout⟩ := commitSlot_frame (s := s) d
  dsimp only
  rw [cfmc, cring, cwch, chci, cout, hfmc, hdbf, hwch, hhcm, hout, hring]
  exact ⟨rfl, rfl, rfl, rfl, rfl, rfl, rfl, rfl, rfl, rfl, rfl, rfl⟩

end Sys2Proof.Machine
end

section
/-! SUPPORT. What the end of the command at the head leaves unchanged, and the reports of a failure. -/

namespace Sys2Proof.Machine

variable (s : State)

/-- A reply changes what was sent alone (R173). -/
@[simp] theorem reply_frame (tag : Tag) (r : Reply) : (reply tag r s).timeBase = s.timeBase ∧ (reply tag r s).dlp = s.dlp
    ∧ (reply tag r s).lbp = s.lbp ∧ (reply tag r s).events = s.events ∧ (reply tag r s).dbf = s.dbf
    ∧ (reply tag r s).cpe = s.cpe ∧ (reply tag r s).fmc = s.fmc ∧ (reply tag r s).wch = s.wch ∧ (reply tag r s).rch = s.rch
    ∧ (reply tag r s).moc = s.moc ∧ (reply tag r s).sgv = s.sgv ∧ (reply tag r s).cah = s.cah ∧ (reply tag r s).hcm = s.hcm
    ∧ (reply tag r s).pst = s.pst ∧ (reply tag r s).frg = s.frg := by
  unfold reply
  split <;> simp

/-- The end of the command at the head reaches the Data Link Port, what was sent, the Event Set and the Last Immediate Result (R105, R171). -/
@[simp] theorem finishHead_frame (r : Reply) : (finishHead r s).timeBase = s.timeBase ∧ (finishHead r s).lbp = s.lbp
    ∧ (finishHead r s).dbf = s.dbf ∧ (finishHead r s).cpe = s.cpe ∧ (finishHead r s).fmc = s.fmc ∧ (finishHead r s).wch = s.wch
    ∧ (finishHead r s).moc = s.moc ∧ (finishHead r s).sgv = s.sgv ∧ (finishHead r s).cah = s.cah
    ∧ (finishHead r s).hcm = s.hcm ∧ (finishHead r s).pst = s.pst ∧ (finishHead r s).frg = s.frg
    ∧ (finishHead r s).dlp.heldTime = s.dlp.heldTime ∧ (finishHead r s).dlp.linkBytes = s.dlp.linkBytes := by
  unfold finishHead
  split
  · simp
  · dsimp only
    repeat' split
    all_goals simp

theorem finishHead_rch (r : Reply) (h : s.dlp.run.answered = false) : (finishHead r s).rch = s.rch := by
  unfold finishHead
  split
  · rfl
  · simp only [h, Bool.false_eq_true, if_false]
    repeat' split
    all_goals simp

theorem finishHead_rises (r : Reply) : EventsRise s (finishHead r s) := by
  unfold finishHead
  split
  · exact .refl s
  · refine .trans (t := if s.dlp.run.answered = true
      then latch .operationComplete { s with rch.lastImmediate := some ⟨r.outcome, s.fmc.position⟩ } else s) ?_ (.of_events_eq ?_)
    · split
      · exact latch_rises _ { s with rch.lastImmediate := _ }
      · exact .refl s
    · dsimp only
      repeat' split
      all_goals simp

/-- The end of the command at the head with the results of its kind. -/
@[simp] theorem endHead_frame (o : OutcomeBlock) : (endHead o s).timeBase = s.timeBase ∧ (endHead o s).lbp = s.lbp
    ∧ (endHead o s).dbf = s.dbf ∧ (endHead o s).cpe = s.cpe ∧ (endHead o s).fmc = s.fmc ∧ (endHead o s).wch = s.wch
    ∧ (endHead o s).moc = s.moc ∧ (endHead o s).sgv = s.sgv ∧ (endHead o s).cah = s.cah
    ∧ (endHead o s).hcm = s.hcm ∧ (endHead o s).pst = s.pst ∧ (endHead o s).frg = s.frg := by
  unfold endHead
  split <;> simp

theorem endHead_rises (o : OutcomeBlock) : EventsRise s (endHead o s) := by
  unfold endHead
  split
  · exact .refl s
  · exact finishHead_rises s _

/-- The Thread at the head ends, if one is in hand. -/
@[simp] theorem endThread_frame (r : Reply) : (endThread r s).timeBase = s.timeBase ∧ (endThread r s).lbp = s.lbp
    ∧ (endThread r s).dbf = s.dbf ∧ (endThread r s).cpe = s.cpe ∧ (endThread r s).fmc = s.fmc ∧ (endThread r s).wch = s.wch
    ∧ (endThread r s).moc = s.moc ∧ (endThread r s).sgv = s.sgv ∧ (endThread r s).cah = s.cah
    ∧ (endThread r s).hcm = s.hcm ∧ (endThread r s).pst = s.pst ∧ (endThread r s).frg = s.frg
    ∧ (endThread r s).dlp.heldTime = s.dlp.heldTime ∧ (endThread r s).dlp.linkBytes = s.dlp.linkBytes := by
  unfold endThread
  split <;> simp

theorem endThread_rch (r : Reply) (h : s.dlp.run.answered = false) : (endThread r s).rch = s.rch := by
  unfold endThread
  split
  · exact finishHead_rch s r h
  · rfl

theorem endThread_rises (r : Reply) : EventsRise s (endThread r s) := by
  unfold endThread
  split
  · exact finishHead_rises s r
  · exact .refl s

end Sys2Proof.Machine
end
section
/-! SUPPORT. The end of a thread (R22, R61, R85, R107, R118, R123, R129, R137, R140, R150). -/

namespace Sys2Proof.Machine

/-- The last push of a thread, with the acquisition made, completes it (R137). -/
theorem stagePushed_acquire {s : State} {n k : Nat} (hw : s.cah.stageWork = some ⟨.acquire, true, n, k⟩) (ha : acquired s = true)
    (hs : s.cah.stack.length = 5) (hr : s.cah.recovering = false) (hc : s.cah.cleaningStep = none) :
    stagePushed s = threadComplete (atBot { s with cah.stack := s.cah.stack ++ [.acquire], cah.stageWork := none }) := by
  simp [stagePushed, hw, ha, hr, hc, hs]

/-- The DSN that follows the end of data (R13, R20). -/
def dsnAfter (e : EodPos) : Nat := match e.lastDsn with | some d => d + 1 | none => 0

/-- CRs as a session of the cartridge begins: its last ratio, when that lies in CRs' range (R123). -/
def sessionRatio (i : CmImage) : Nat :=
  match i.lastRatio with
  | some r => if 256 ≤ r ∧ r ≤ 8192 then r else 512
  | none => 512

/-- The two figures that the completion of a thread takes by cases. -/
theorem threadComplete_figures {s : State} {i : CmImage} (hi : s.cah.image = some i) :
    (threadComplete s).fmc.nextDsn = dsnAfter s.fmc.eod ∧ (threadComplete s).sgv.crs = sessionRatio i := by
  simp only [threadComplete, hi, endThread_frame, latch_fmc, latch_sgv, refreshEffective, setEarlyWarning_frame]
  exact ⟨rfl, rfl⟩

/-- Settles O44: the push that ends the thread is `threadComplete`, whose record gives every block, and the answer to a Thread at the
head reaches none of the blocks named. -/
theorem threadCompletionSetsEveryBlock : Obligations.ThreadCompletionSetsEveryBlock := by
  intro n k i s hw hm ho hk hs hr hc hi ha t
  have ht : t = threadComplete (atBot { s with cah.stack := s.cah.stack ++ [.acquire], cah.stageWork := none }) :=
    stagePushed_acquire hw (by simp [acquired, hm, ho, hk]) (by rw [hs]; rfl) hr hc
  have hrch : t.rch = { expected := some 0, nextDsn := some 0, resume := some botPlace } := by
    rw [ht]
    unfold threadComplete
    dsimp only
    rw [endThread_rch]
    · simp [refreshEffective]
    · simpa [refreshEffective] using ha
  have hev : s.events.length = 25 → (flagsOf 3 t.events).latched = true := by
    intro hl
    rw [ht]
    refine latched_after (e := .threadComplete) (endThread_rises _ _) ?_
    refine ((setEarlyWarning_rises _).trans (.of_events_eq rfl)).1.trans hl
  obtain ⟨hdsn, hcrs⟩ := threadComplete_figures
    (s := atBot { s with cah.stack := s.cah.stack ++ [.acquire], cah.stageWork := none }) (by exact hi)
  rw [← ht] at hdsn hcrs
  refine ⟨rfl, ?_⟩
  rw [hdsn, hcrs, hrch, eq_true hev, ht]
  simp [threadComplete, refreshEffective, hs, hi, stageOrder, EodPos.place, botPlace, wrapStart, regionLow, capOf]
  exact ⟨rfl, rfl⟩

end Sys2Proof.Machine
end

section
/-! SUPPORT. A permanent write failure, and the writes of the Cartridge Memory (R74, R76, R139, R140, R143). -/

namespace Sys2Proof.Machine

variable (s : State)

/-! ## What the report of a failure leaves -/

/-- The direction follows the rings and changes alone (R47). -/
@[simp] theorem settleDirection_frame : (settleDirection s).out = s.out ∧ (settleDirection s).timeBase = s.timeBase
    ∧ (settleDirection s).dlp = s.dlp ∧ (settleDirection s).lbp = s.lbp ∧ (settleDirection s).events = s.events
    ∧ (settleDirection s).cpe = s.cpe ∧ (settleDirection s).fmc = s.fmc ∧ (settleDirection s).wch = s.wch
    ∧ (settleDirection s).rch = s.rch ∧ (settleDirection s).moc = s.moc ∧ (settleDirection s).sgv = s.sgv
    ∧ (settleDirection s).cah = s.cah ∧ (settleDirection s).hcm = s.hcm ∧ (settleDirection s).pst = s.pst
    ∧ (settleDirection s).frg = s.frg
    ∧ (settleDirection s).dbf.writeRing = s.dbf.writeRing ∧ (settleDirection s).dbf.readRing = s.dbf.readRing
    ∧ (settleDirection s).dbf.staging = s.dbf.staging ∧ (settleDirection s).dbf.readAheadActive = s.dbf.readAheadActive
    ∧ (settleDirection s).dbf.readAheadLimit = s.dbf.readAheadLimit ∧ (settleDirection s).dbf.starvedTime = s.dbf.starvedTime
    ∧ (settleDirection s).dbf.readSideDrops = s.dbf.readSideDrops ∧ (settleDirection s).dbf.flush = s.dbf.flush := by
  unfold settleDirection
  repeat' split
  all_goals simp

/-- The Data Buffer apart, the drop of an empty open data set reaches the engine's window and the Next DSN (R35). -/
@[simp] theorem dropEmptyOpen_frame : (dropEmptyOpen s).cah = s.cah ∧ (dropEmptyOpen s).wch = s.wch ∧ (dropEmptyOpen s).events = s.events
    ∧ (dropEmptyOpen s).dbf.flush = s.dbf.flush := by
  unfold dropEmptyOpen
  repeat' split
  all_goals simp

@[simp] theorem dropUnplaced_frame (tag : Tag) : (dropUnplaced tag s).cah = s.cah ∧ (dropUnplaced tag s).wch = s.wch
    ∧ (dropUnplaced tag s).events = s.events ∧ (dropUnplaced tag s).dbf.flush = s.dbf.flush := by
  unfold dropUnplaced dropRecords
  repeat' split
  all_goals simp

@[simp] theorem dropReading_frame : (dropReading s).cah = s.cah ∧ (dropReading s).wch = s.wch ∧ (dropReading s).events = s.events
    ∧ (dropReading s).dbf.flush = s.dbf.flush := by
  simp [dropReading, dropCollecting, stopCollecting]

/-- A media operation is all that the drop of one reaches. -/
@[simp] theorem dropLinkOperation_frame : (dropLinkOperation s).wch = s.wch ∧ (dropLinkOperation s).events = s.events
    ∧ (dropLinkOperation s).dbf = s.dbf ∧ (dropLinkOperation s).cah.mode = s.cah.mode
    ∧ (dropLinkOperation s).cah.sessionOpenWrite = s.cah.sessionOpenWrite
    ∧ (dropLinkOperation s).cah.writeBackWaits = s.cah.writeBackWaits := by
  unfold dropLinkOperation
  repeat' split
  all_goals simp

@[simp] theorem dropWaitingOperation_frame : (dropWaitingOperation s).wch = s.wch ∧ (dropWaitingOperation s).events = s.events
    ∧ (dropWaitingOperation s).dbf = s.dbf ∧ (dropWaitingOperation s).cah.mode = s.cah.mode
    ∧ (dropWaitingOperation s).cah.sessionOpenWrite = s.cah.sessionOpenWrite
    ∧ (dropWaitingOperation s).cah.writeBackWaits = s.cah.writeBackWaits := by
  unfold dropWaitingOperation
  repeat' split
  all_goals simp

/-- What a failed writer has been left with: the medium mode, the Session Open write, the Rewrite Queue, the Abandon frame and the flush
of `t` are those of `s`, and no event has been cleared. -/
structure FailureStands (s t : State) : Prop where
  mode : t.cah.mode = s.cah.mode
  sessionOpen : t.cah.sessionOpenWrite = s.cah.sessionOpenWrite
  waits : t.cah.writeBackWaits = s.cah.writeBackWaits
  rewrites : t.wch.rewriteQueue = s.wch.rewriteQueue
  abandon : t.wch.abandon = s.wch.abandon
  flush : t.dbf.flush = s.dbf.flush
  events : EventsRise s t

theorem endHead_failure {t : State} (o : OutcomeBlock) (h : FailureStands s t) : FailureStands s (endHead o t) where
  mode := by simpa using h.mode
  sessionOpen := by simpa using h.sessionOpen
  waits := by simpa using h.waits
  rewrites := by simpa using h.rewrites
  abandon := by simpa using h.abandon
  flush := by simpa using h.flush
  events := h.events.trans (endHead_rises t o)

theorem pendReport_failure (r : Report) : FailureStands s (pendReport r s) := by
  unfold pendReport
  dsimp only
  split <;> constructor <;> simp [EventsRise]

/-- However a failure is reported, it undoes nothing of what it has done (R76). -/
theorem reportFailure_failure (r : Report) : FailureStands s (reportFailure r s) := by
  unfold reportFailure
  repeat' split
  all_goals first
    | exact pendReport_failure s r
    | (apply endHead_failure; constructor <;> simp [EventsRise, endSearches])

/-! ## A permanent write failure -/

@[simp] theorem startWriter_frame : (startWriter s).cah = s.cah ∧ (startWriter s).events = s.events ∧ (startWriter s).dbf = s.dbf
    ∧ (startWriter s).wch.rewriteQueue = s.wch.rewriteQueue ∧ (startWriter s).wch.abandon = s.wch.abandon := by
  unfold startWriter
  split <;> simp

/-- The writer's way to its EOD frame leaves the cartridge, the rings and the Rewrite Queue (R55, R74, R77). -/
@[simp] theorem finishEod_frame (c : EodCause) : (finishEod c s).cah = s.cah ∧ (finishEod c s).events = s.events
    ∧ (finishEod c s).dbf = s.dbf ∧ (finishEod c s).wch.rewriteQueue = s.wch.rewriteQueue
    ∧ (finishEod c s).wch.abandon = s.wch.abandon := by
  unfold finishEod
  dsimp only
  repeat' split
  all_goals simp

@[simp] theorem toEod_frame (c : EodCause) : (toEod c s).cah = s.cah ∧ (toEod c s).events = s.events
    ∧ (toEod c s).dbf = s.dbf ∧ (toEod c s).wch.rewriteQueue = s.wch.rewriteQueue
    ∧ (toEod c s).wch.abandon = s.wch.abandon := by
  unfold toEod
  split
  · simp [planEod]
  · simp

/-- A permanent write failure before its report: WRITE SUSPENDED, nothing to rewrite, and the way to EOD taken (R74). -/
def writeSuspended (ofEod : Bool) (s : State) : State :=
  let s := { voidEntries (fun _ => true) s with
    wch.rewriteQueue := []
    wch.abandon := none
    wch.eodPlan := none
    cah.mode := some .writeSuspended
    wch.writer := if s.wch.writer = .ending then .starting else s.wch.writer }
  if ofEod = true ∨ s.cah.state ≠ .threaded then finishEod .failure s else toEod .failure s

theorem permanentFailure_eq (kind : ReportKind) (dsn : Option Nat) (ofEod : Bool) :
    permanentFailure kind dsn ofEod s =
      let t := endFlush (latch .writeFailure (writeSuspended ofEod s))
      reportFailure ⟨kind, dsn, t.fmc.eod.nextObject, held t⟩ t := rfl

@[simp] theorem writeSuspended_frame (ofEod : Bool) : (writeSuspended ofEod s).cah = { s.cah with mode := some .writeSuspended }
    ∧ (writeSuspended ofEod s).wch.rewriteQueue = [] ∧ (writeSuspended ofEod s).wch.abandon = none
    ∧ (writeSuspended ofEod s).events = s.events := by
  unfold writeSuspended
  dsimp only
  split <;> simp [voidEntries]

/-- What a permanent write failure leaves once it has been reported (R74). -/
theorem permanentFailure_leaves (kind : ReportKind) (dsn : Option Nat) (ofEod : Bool) :
    let t := permanentFailure kind dsn ofEod s
    t.cah.mode = some .writeSuspended ∧ t.cah.sessionOpenWrite = s.cah.sessionOpenWrite ∧ t.cah.writeBackWaits = s.cah.writeBackWaits
      ∧ t.wch.rewriteQueue = [] ∧ t.wch.abandon = none ∧ t.dbf.flush = false ∧ EventsRise (latch .writeFailure s) t := by
  rw [permanentFailure_eq]
  obtain ⟨hmode, hopen, hwaits, hrewrites, habandon, hflush, hevents⟩ := reportFailure_failure
    (endFlush (latch .writeFailure (writeSuspended ofEod s)))
    ⟨kind, dsn, (writeSuspended ofEod s).fmc.eod.nextObject, held (endFlush (latch .writeFailure (writeSuspended ofEod s)))⟩
  refine ⟨hmode.trans ?_, hopen.trans ?_, hwaits.trans ?_, hrewrites.trans ?_, habandon.trans ?_, hflush,
    (EventsRise.of_events_eq ?_).trans hevents⟩ <;> simp [endFlush]

/-! ## The Session Open write and the write-back -/

variable {s}

theorem reportFault_rises (u : FaultUnit) (c : FaultCause) (s : State) : EventsRise s (reportFault u c s) := by
  unfold reportFault enterRecord copyRecord
  dsimp only
  repeat' split
  all_goals exact (EventsRise.of_events_eq rfl).trans (latch_rises _ _)

/-- A fault of a unit that does not freeze the drive latches Equipment Warning (R187). -/
theorem reportFault_warns {u : FaultUnit} (hu : u.freezes = false) (c : FaultCause) (hl : s.events.length = 25) :
    (flagsOf 23 (reportFault u c s).events).latched = true := by
  unfold reportFault
  simp only [hu, Bool.false_eq_true, if_false]
  refine latched_after (e := .equipmentWarning) (.refl _) ?_
  unfold enterRecord copyRecord
  split <;> exact hl

/-- A fault of a unit that does not freeze the drive leaves the drive condition, and opens a record where none is open (R187). -/
theorem reportFault_frg {u : FaultUnit} (hu : u.freezes = false) (c : FaultCause) (s : State) :
    (reportFault u c s).frg.condition = s.frg.condition ∧ (s.frg.current = none → (reportFault u c s).frg.current =
      some [⟨u, c, s.timeBase, s.frg.condition, s.moc.motion, s.cah.state⟩]) := by
  unfold reportFault
  simp only [hu, Bool.false_eq_true, if_false, latch_frg]
  unfold enterRecord copyRecord
  constructor
  · split <;> rfl
  · intro h
    simp [h, enterFault]

/-- The third failed attempt of a write of the Cartridge Memory, the failure that it brings apart (R139, R140, R143). -/
def memoryWriteFails (s : State) : State := reportFault .cmReader .cmWrite (latch .cmWriteFailed s)

theorem memoryWriteFails_fold (s : State) : reportFault .cmReader .cmWrite (latch .cmWriteFailed s) = memoryWriteFails s := rfl

@[simp] theorem memoryWriteFails_frame (s : State) : (memoryWriteFails s).cah = s.cah ∧ (memoryWriteFails s).moc = s.moc := by
  simp [memoryWriteFails]

theorem memoryWriteFails_rises (s : State) : EventsRise (latch .cmWriteFailed s) (memoryWriteFails s) := reportFault_rises _ _ _

theorem memoryWriteFails_warns (hl : s.events.length = 25) : (flagsOf 23 (memoryWriteFails s).events).latched = true :=
  reportFault_warns rfl _ ((latch_rises _ s).1.trans hl)

/-- The third failed Session Open write: the fault, and then a permanent write failure (R140). -/
theorem sessionOpenEnds_third (h : s.cah.sessionOpenWrite = some 3) (hw : s.cah.writeBackWaits = false) :
    sessionOpenEnds false s = permanentFailure .sessionOpen
      (dataSetBeingWritten (memoryWriteFails { s with cah.sessionOpenWrite := none })) false
      (memoryWriteFails { s with cah.sessionOpenWrite := none }) := by
  have hf (d : Option Nat) := (permanentFailure_leaves (memoryWriteFails { s with cah.sessionOpenWrite := none }) .sessionOpen d false).2.2.1
  simp only [memoryWriteFails_frame] at hf
  simp only [sessionOpenEnds, h, memoryWriteFails_fold, Bool.false_eq_true, if_false, Nat.lt_irrefl]
  rw [if_neg]
  rw [hf, hw]
  simp

/-- Pops of an unthread begin at the top of the stack, with the tape at rest (R135, R142). -/
theorem popUnthread_at_rest {below : List Stage} {top : Stage} (hs : s.cah.stack = below ++ [top]) (ho : s.moc.operation = none) :
    popUnthread s = { s with
      cah.unwind := some .unthread
      cah.stageWork := some { stage := top, push := false, attempt := 1, timer := 0 } } := by
  simp [popUnthread, unwindStack, beginPop, hs, ho]

/-- The Session History keeps its last four sessions, the present one last (R143). -/
theorem gatherImage_history (s : State) (i : CmImage) : (gatherImage s i).history.length ≤ 4 ∧
    (gatherImage s i).history.getLast? =
      some ⟨Config.driveSerial, s.wch.dataSetsCommitted, s.wch.rewriteFrames, s.rch.recovered, s.rch.unrecovered⟩ := by
  have e : (gatherImage s i).history = (i.history ++
      [(⟨Config.driveSerial, s.wch.dataSetsCommitted, s.wch.rewriteFrames, s.rch.recovered, s.rch.unrecovered⟩ : SessionEntry)]).drop
        (i.history.length + 1 - 4) := by
    unfold gatherImage
    dsimp only
    split <;> rfl
  rw [e]
  constructor
  · rw [List.length_drop, List.length_append, List.length_singleton]
    omega
  · rw [List.getLast?_drop, List.length_append, List.length_singleton, if_neg (by omega)]
    simp

/-- Settles O45: the ends of attempts that fail or succeed at once are the records of `sessionOpenEnds` and `writeBackEnds`; the third
failed attempt is a permanent write failure, and a failed write-back a fault of the CM READER before the pops. -/
theorem cartridgeMemoryIsWritten : Obligations.CartridgeMemoryIsWritten := by
  intro n top below c i s
  refine ⟨fun h hw ok => ?_, fun h hw hc => ?_, fun h hw hn => ?_, fun h hw ht => ?_, fun h ok => ?_,
    fun hb hc hi hs ho => ⟨?_, ?_⟩, ?_, (gatherImage_history s i).1, (gatherImage_history s i).2, fun hv => ?_, fun hv => ?_⟩
  · simp [exec, execSessionOpenWriteDone, sessionOpenEnds, h]
  · simp [exec, execSessionOpenWriteDone, sessionOpenEnds, h, hw, hc]
  · simp [exec, execSessionOpenWriteDone, sessionOpenEnds, h, hn]
  · rw [exec, execSessionOpenWriteDone, sessionOpenEnds_third h hw]
    obtain ⟨hmode, hopen, -, hrewrites, habandon, hflush, hevents⟩ := permanentFailure_leaves
      (memoryWriteFails { s with cah.sessionOpenWrite := none }) .sessionOpen
      (dataSetBeingWritten (memoryWriteFails { s with cah.sessionOpenWrite := none })) false
    refine ⟨rfl, hmode, by simpa using hopen, hrewrites, habandon, hflush, fun hl => ?_⟩
    have hrise := (latch_rises _ _).trans hevents
    exact ⟨latched_after ((memoryWriteFails_rises _).trans hrise) hl,
      latched_after hevents ((memoryWriteFails_rises _).1.trans ((latch_rises _ _).1.trans hl)), hrise.2 _ (memoryWriteFails_warns hl)⟩
  · simp [exec, execCmWriteBackDone, writeBackEnds, h]
  · have ht : writeBackEnds true s = popUnthread (writeMemory { s with cah.writeBack := false }) := by
      simp [writeBackEnds, hb]
    rw [popUnthread_at_rest (below := below) (top := top) (by exact hs) (by exact ho)] at ht
    simp [exec, execCmWriteBackDone, ht, writeMemory, hc, hi]
  · have ht : writeBackEnds false s = popUnthread (memoryWriteFails { s with cah.writeBack := false, cah.writeBackFailed := true }) := by
      simp [writeBackEnds, hb, memoryWriteFails]
    rw [popUnthread_at_rest (below := below) (top := top) (by simpa using hs) (by simpa using ho)] at ht
    intro t
    obtain ⟨hcond, hcurrent⟩ := reportFault_frg (u := .cmReader) rfl .cmWrite
      (latch .cmWriteFailed { s with cah.writeBack := false, cah.writeBackFailed := true })
    refine ⟨rfl, ?_⟩
    simp only [t, ht]
    refine ⟨by simp, by simpa using hc, trivial, trivial, fun hl => ?_, hcurrent⟩
    exact latched_after (e := .cmWriteFailed) (memoryWriteFails_rises _) hl
  · unfold gatherImage
    dsimp only
    split <;> rfl
  · simp [gatherImage, hv]
  · simp [gatherImage, hv]

end Sys2Proof.Machine
end

section
/-! SUPPORT. The seat of a cartridge and its negotiation (R13, R14, R131, R133, R134, R159, R184). -/

namespace Sys2Proof.Machine

variable {s : State}

/-! ## The directory at seat -/

/-- The directory's values, Early Warning and its events are all that taking it at seat changes (R14). -/
@[simp] theorem takeDirectory_frame (s : State) : (takeDirectory s).lbp = s.lbp ∧ (takeDirectory s).moc = s.moc
    ∧ (takeDirectory s).cah = s.cah ∧ (takeDirectory s).frg = s.frg := by
  unfold takeDirectory forgetDirectory
  repeat' split
  all_goals simp

theorem takeDirectory_rises (s : State) : EventsRise s (takeDirectory s) := by
  have hf : EventsRise s (forgetDirectory s) := (EventsRise.of_events_eq rfl).trans (setEarlyWarning_rises _)
  unfold takeDirectory
  repeat' split
  · exact hf.trans (latch_rises _ _)
  · exact hf.trans (.of_events_eq rfl)
  · exact .of_events_eq rfl
  · exact hf.trans (latch_rises _ _)

/-- A memory with Session Open yes gives no directory (R14). -/
theorem takeDirectory_sessionOpen {i : CmImage} (hi : s.cah.image = some i) (ho : i.sessionOpen = true) :
    (takeDirectory s).fmc.directory = [] ∧ (takeDirectory s).fmc.eod = EodPos.empty ∧ (takeDirectory s).fmc.directoryValid = false
      ∧ (s.events.length = 25 → (flagsOf 13 (takeDirectory s).events).latched = true) := by
  have e : takeDirectory s = latch .directoryInvalid (forgetDirectory s) := by simp [takeDirectory, hi, ho]
  rw [e]
  refine ⟨by simp [forgetDirectory], by simp [forgetDirectory], by simp [forgetDirectory], fun hl => ?_⟩
  exact latched_after (e := .directoryInvalid) (.refl _) ((setEarlyWarning_rises _).1.trans hl)

/-- The memory of a blank cartridge gives the empty values, with Directory Valid set (R13, R14). -/
theorem takeDirectory_blank {i : CmImage} (hi : s.cah.image = some i) (ho : i.sessionOpen = false) (hb : blankMemory i = true) :
    (takeDirectory s).fmc.directory = [] ∧ (takeDirectory s).fmc.eod = EodPos.empty ∧ (takeDirectory s).fmc.directoryValid = true
      ∧ (takeDirectory s).fmc.filemarks = 0 := by
  simp [takeDirectory, forgetDirectory, hi, ho, hb]

/-- Any other memory with Session Open no gives its own directory (R14). -/
theorem takeDirectory_copy {i : CmImage} (hi : s.cah.image = some i) (ho : i.sessionOpen = false) (hb : blankMemory i = false) :
    (takeDirectory s).fmc.directory = i.directory ∧ (takeDirectory s).fmc.eod = i.eod ∧ (takeDirectory s).fmc.directoryValid = true
      ∧ (takeDirectory s).fmc.filemarks = i.filemarks := by
  simp [takeDirectory, hi, ho, hb]

/-- With no memory read there is no directory (R14). -/
theorem takeDirectory_none (hi : s.cah.image = none) : (takeDirectory s).fmc.directoryValid = false := by
  simp [takeDirectory, forgetDirectory, hi]

theorem blankMemory_iff (i : CmImage) : blankMemory i = true ↔ i.directory = [] ∧ i.eod.lastDsn = none := by
  simp [blankMemory]

/-! ## What a negotiated cartridge goes on to -/

/-- A cartridge not in NEGOTIATED, a drive not in READY, and a data cartridge with Auto-Thread off stay (R131, R133, R159). -/
theorem startNegotiated_stays (h : s.cah.state ≠ .negotiated ∨ s.frg.condition ≠ .ready
    ∨ (s.cah.autoThread = false ∧ ∀ i, s.cah.image = some i → i.cartType = .data)) : startNegotiated s = s := by
  unfold startNegotiated
  rcases h with h | h | ⟨ha, hi⟩
  · rw [if_pos (.inl h)]
  · rw [if_pos (.inr h)]
  · split
    · rfl
    · split
      · rename_i i e
        simp [hi i e, ha]
      · simp [ha]

/-- A cleaning cartridge in NEGOTIATED begins its pass in READY (R159). -/
theorem startNegotiated_cleaning {i : CmImage} (hs : s.cah.state = .negotiated) (hc : s.frg.condition = .ready)
    (hi : s.cah.image = some i) (ht : i.cartType = .cleaning) : startNegotiated s = beginCleaning i.remainingUses s := by
  simp [startNegotiated, hs, hc, hi, ht]

/-- READY with the cartridge HELD: Drive Ready is latched, and the cartridge stays (R183). -/
theorem driveReady_held (h : s.cah.state = .held) : (driveReady s).cah = s.cah ∧ (driveReady s).moc = s.moc
    ∧ (driveReady s).frg.condition = .ready ∧ EventsRise (latch .driveReady s) (driveReady s) := by
  unfold driveReady
  dsimp only
  split
  · rw [startNegotiated_stays (by left; simp [h])]
    refine ⟨by simp, by simp, by simp, ?_⟩
    exact (EventsRise.of_events_eq rfl).trans (latchAll_rises _ _)
  · rw [startNegotiated_stays (by left; simp [h])]
    exact ⟨by simp, by simp, by simp, .of_events_eq rfl⟩

/-- A recovery ends HELD and READY (R184). -/
theorem endRecovery_recovering (h : s.cah.recovering = true) :
    (endRecovery s).cah = { s.cah with recovering := false, state := .held } ∧ (endRecovery s).moc = s.moc
      ∧ (endRecovery s).frg.condition = .ready ∧ EventsRise (latch .driveReady s) (endRecovery s) := by
  have e : endRecovery s = driveReady { s with cah.recovering := false, cah.state := .held } := by simp [endRecovery, h]
  rw [e]
  exact driveReady_held rfl

theorem endRecovery_idle (h : s.cah.recovering = false) : endRecovery s = s := by simp [endRecovery, h]

/-! ## Negotiation -/

/-- A data cartridge with its mode, its directory and its format cap (R14, R133). -/
def withMode (m : Mode) (s : State) : State :=
  setFormatCap (formatCapOf m) (takeDirectory { s with cah.mode := some m, cah.negotiated := some m })

/-- A data cartridge in the state that its mode gives: HELD where it is incompatible, and NEGOTIATED otherwise (R133). -/
def seatedAs (m : Mode) (s : State) : State :=
  if m = .incompatible then latch .incompatibleMedium { s with cah.state := .held } else { s with cah.state := .negotiated }

/-- The type of the cartridge at its negotiation: the memory's, or the sensed one where the memory was not read (R132, R133). -/
def kindAtSeat (s : State) : CartType :=
  match s.cah.image with
  | some i => i.cartType
  | none => s.cah.sensedType.getD .data

theorem negotiate_data (h : kindAtSeat s = .data) :
    negotiate s =
      let t := seatedAs (negotiatedMode s.cah.image s.cah.writeProtected) (withMode (negotiatedMode s.cah.image s.cah.writeProtected) s)
      if t.cah.recovering then endRecovery t else startNegotiated t := by
  unfold negotiate
  dsimp only
  split
  · rename_i hk
    exact absurd (h.symm.trans hk) (by decide)
  · rfl

/-- A cleaning cartridge without a mode, with format cap 6 (R133). -/
def withoutMode (s : State) : State := setFormatCap 6 { s with cah.mode := none, cah.negotiated := none }

@[simp] theorem withoutMode_frame (s : State) : (withoutMode s).cah = { s.cah with mode := none, negotiated := none }
    ∧ (withoutMode s).moc = { s.moc with formatCap := 6 } ∧ (withoutMode s).frg = s.frg ∧ (withoutMode s).events = s.events := by
  simp [withoutMode, setFormatCap]

theorem negotiate_cleaning_unread (h : kindAtSeat s = .cleaning) (hi : s.cah.image = none) :
    negotiate s = endRecovery (latch .cleaningIncomplete { withoutMode s with cah.state := .held }) := by
  have hk : s.cah.sensedType.getD .data = .cleaning := by simpa [kindAtSeat, hi] using h
  simp [negotiate, hi, hk, withoutMode, setFormatCap]

theorem negotiate_cleaning_read {i : CmImage} (h : kindAtSeat s = .cleaning) (hi : s.cah.image = some i) :
    negotiate s =
      if i.remainingUses = 0 then endRecovery (latch .cleaningExpired { withoutMode s with cah.state := .held })
      else if s.cah.recovering then endRecovery (withoutMode s)
      else startNegotiated { withoutMode s with cah.state := .negotiated } := by
  have hk : i.cartType = .cleaning := by simpa [kindAtSeat, hi] using h
  simp [negotiate, hi, hk, withoutMode, setFormatCap]

@[simp] theorem withMode_frame (m : Mode) (s : State) : (withMode m s).cah = { s.cah with mode := some m, negotiated := some m }
    ∧ (withMode m s).moc = { s.moc with formatCap := formatCapOf m } ∧ (withMode m s).frg = s.frg
    ∧ (withMode m s).fmc = (takeDirectory { s with cah.mode := some m, cah.negotiated := some m }).fmc
    ∧ (withMode m s).events = (takeDirectory { s with cah.mode := some m, cah.negotiated := some m }).events := by
  simp [withMode, setFormatCap]

@[simp] theorem seatedAs_frame (m : Mode) (s : State) : (seatedAs m s).cah = { s.cah with
      state := if m = .incompatible then .held else .negotiated }
    ∧ (seatedAs m s).moc = s.moc ∧ (seatedAs m s).frg = s.frg ∧ (seatedAs m s).fmc = s.fmc := by
  unfold seatedAs
  split <;> simp [*]

theorem seatedAs_rises (m : Mode) (s : State) : EventsRise s (seatedAs m s) := by
  unfold seatedAs
  split
  · exact (EventsRise.of_events_eq rfl).trans (latch_rises _ _)
  · exact .of_events_eq rfl

theorem withMode_rises (m : Mode) (s : State) : EventsRise s (withMode m s) :=
  ((EventsRise.of_events_eq (t := { s with cah.mode := some m, cah.negotiated := some m }) rfl).trans (takeDirectory_rises _)).trans
    (.of_events_eq (withMode_frame m s).2.2.2.2)

/-! ## The reads of the Cartridge Memory -/

@[simp] theorem pushNext_lbp (s : State) : (pushNext s).lbp = s.lbp := by
  unfold pushNext beginPush beginAcquire
  repeat' split
  all_goals simp

@[simp] theorem startNegotiated_lbp (s : State) : (startNegotiated s).lbp = s.lbp := by
  unfold startNegotiated beginThread beginCleaning
  repeat' split
  all_goals simp

@[simp] theorem endRecovery_lbp (s : State) : (endRecovery s).lbp = s.lbp := by
  unfold endRecovery driveReady
  dsimp only
  repeat' split
  all_goals simp

/-- Negotiation is the Cartridge Handler's, and leaves the Library Port. -/
theorem negotiate_lbp (s : State) : (negotiate s).lbp = s.lbp := by
  unfold negotiate setFormatCap
  dsimp only
  repeat' split
  all_goals simp

/-- With no library order waiting, the end of a negotiation answers none (R136, R145). -/
theorem settleLibraryWait_none (h : s.cah.state = .seated ∨ s.lbp.waiting = none) : settleLibraryWait s = s := by
  unfold settleLibraryWait
  rcases h with h | h <;> simp [h]

/-- The Cartridge Memory has been read (R131). -/
def memoryRead (c : Cartridge) (s : State) : State :=
  { s with cah.cmReadAttempt := none, cah.cmReadable := true, cah.image := some c.memory }

@[simp] theorem memoryRead_frame (c : Cartridge) (s : State) :
    (memoryRead c s).cah = { s.cah with cmReadAttempt := none, cmReadable := true, image := some c.memory }
      ∧ (memoryRead c s).lbp = s.lbp ∧ (memoryRead c s).moc = s.moc ∧ (memoryRead c s).frg = s.frg
      ∧ (memoryRead c s).events = s.events := ⟨rfl, rfl, rfl, rfl, rfl⟩

/-- The Cartridge Memory cannot be read (R131, R187). -/
def memoryUnread (s : State) : State :=
  reportFault .cmReader .cmRead { s with cah.cmReadAttempt := none, cah.cmReadable := false, cah.image := none }

@[simp] theorem memoryUnread_frame (s : State) :
    (memoryUnread s).cah = { s.cah with cmReadAttempt := none, cmReadable := false, image := none }
      ∧ (memoryUnread s).lbp = s.lbp ∧ (memoryUnread s).moc = s.moc := by
  simp [memoryUnread]

/-- The record of a Cartridge Memory that cannot be read: no freeze, and one entry where no record stood open (R187). -/
theorem memoryUnread_frg (s : State) : (memoryUnread s).frg.condition = s.frg.condition ∧ (s.frg.current = none →
    (memoryUnread s).frg.current = some [⟨.cmReader, .cmRead, s.timeBase, s.frg.condition, s.moc.motion, s.cah.state⟩]) :=
  reportFault_frg (u := .cmReader) rfl _ _

theorem cmReadEnds_good {n : Nat} {c : Cartridge} (hn : s.cah.cmReadAttempt = some n) (hc : s.cah.cartridge = some c) :
    cmReadEnds true s = negotiate (memoryRead c s) := by
  simp [cmReadEnds, hn, hc, memoryRead]

theorem cmReadEnds_third (h : s.cah.cmReadAttempt = some 3) : cmReadEnds false s = negotiate (memoryUnread s) := by
  simp [cmReadEnds, h, memoryUnread]

/-- The end of a negotiation is all that follows a read, where no library order waits. -/
theorem exec_cmReadAttemptDone {ok : Bool} {u : State} (h : cmReadEnds ok s = negotiate u) (hu : u.lbp = s.lbp)
    (hw : s.lbp.waiting = none) : exec (.cmReadAttemptDone ok) s = .next (finish (cmReadEnds ok s)) := by
  have hl : (cmReadEnds ok s).lbp.waiting = none := by rw [h, negotiate_lbp, hu, hw]
  simp only [exec, execCmReadAttemptDone]
  rw [settleLibraryWait_none (.inr hl)]

/-- A data cartridge with Auto-Thread off, outside a recovery, ends in the state that its mode gives (R133). -/
theorem negotiate_data_rests (hk : kindAtSeat s = .data) (hr : s.cah.recovering = false) (ha : s.cah.autoThread = false) :
    negotiate s = seatedAs (negotiatedMode s.cah.image s.cah.writeProtected)
      (withMode (negotiatedMode s.cah.image s.cah.writeProtected) s) := by
  rw [negotiate_data hk]
  simp only [seatedAs_frame, withMode_frame, hr, Bool.false_eq_true, if_false]
  apply startNegotiated_stays
  right
  right
  simp only [seatedAs_frame, withMode_frame, ha, true_and]
  intro i hi
  simpa [kindAtSeat, hi] using hk

/-- What the read memory of a data cartridge sets (R13, R14, R133). -/
theorem cmReadEnds_data {n : Nat} {c : Cartridge} (hn : s.cah.cmReadAttempt = some n) (hc : s.cah.cartridge = some c)
    (hr : s.cah.recovering = false) (ha : s.cah.autoThread = false) (hd : c.memory.cartType = .data) :
    cmReadEnds true s = seatedAs (negotiatedMode (some c.memory) s.cah.writeProtected)
      (withMode (negotiatedMode (some c.memory) s.cah.writeProtected) (memoryRead c s)) := by
  rw [cmReadEnds_good hn hc, negotiate_data_rests (by exact hd) (by exact hr) (by exact ha)]
  rfl

/-- The mode of a data cartridge by its level and the switch (R133). -/
theorem negotiatedMode_eq (i : CmImage) (p : Bool) :
    (i.level = 4 → negotiatedMode (some i) p = if p then .readOnly .writeProtected else .readWrite)
      ∧ (i.level = 3 → negotiatedMode (some i) p = .readOnly .level3)
      ∧ (i.level ≠ 3 → i.level ≠ 4 → negotiatedMode (some i) p = .incompatible) := by
  refine ⟨fun h => ?_, fun h => ?_, fun h h' => ?_⟩ <;> simp [negotiatedMode, *]

/-- The good read of a data cartridge's memory: its mode and state, the format cap, and the directory (R13, R14, R133). -/
theorem data_negotiated {n : Nat} {c : Cartridge} (hn : s.cah.cmReadAttempt = some n) (hc : s.cah.cartridge = some c)
    (hr : s.cah.recovering = false) (ha : s.cah.autoThread = false) (hd : c.memory.cartType = .data) :
    let t := cmReadEnds true s
    let m := negotiatedMode (some c.memory) s.cah.writeProtected
    t.cah = { (memoryRead c s).cah with
        mode := some m, negotiated := some m, state := if m = .incompatible then .held else .negotiated }
      ∧ t.moc = { s.moc with formatCap := formatCapOf m }
      ∧ t.fmc = (takeDirectory { memoryRead c s with cah.mode := some m, cah.negotiated := some m }).fmc
      ∧ (m = .incompatible → s.events.length = 25 → (flagsOf 2 t.events).latched = true)
      ∧ EventsRise (takeDirectory { memoryRead c s with cah.mode := some m, cah.negotiated := some m }) t := by
  intro t m
  have ht : t = seatedAs m (withMode m (memoryRead c s)) := cmReadEnds_data hn hc hr ha hd
  rw [ht]
  refine ⟨by simp, by simp [memoryRead], by simp, fun hm hl => ?_,
    (EventsRise.of_events_eq (by simp)).trans (seatedAs_rises _ _)⟩
  rw [seatedAs, if_pos hm]
  refine latched_after (e := .incompatibleMedium) (.refl _) ?_
  exact (withMode_rises _ _).1.trans hl

/-- A cleaning cartridge that is read outside a recovery: HELD with no use left, and otherwise NEGOTIATED until READY begins its pass
(R133, R159). -/
theorem cleaning_negotiated {n : Nat} {c : Cartridge} (hn : s.cah.cmReadAttempt = some n) (hc : s.cah.cartridge = some c)
    (hr : s.cah.recovering = false) (hd : c.memory.cartType = .cleaning) :
    let t := cmReadEnds true s
    t.cah.cmReadable = true ∧ t.cah.cmReadAttempt = none ∧ t.cah.mode = none ∧ t.moc.formatCap = 6
      ∧ (c.memory.remainingUses = 0 → t.cah.state = .held ∧ (s.events.length = 25 → (flagsOf 22 t.events).latched = true))
      ∧ (0 < c.memory.remainingUses → s.frg.condition ≠ .ready → t.cah.state = .negotiated ∧ t.cah.image = some c.memory)
      ∧ (0 < c.memory.remainingUses → s.frg.condition = .ready → t.cah.state = .cleaning ∧ t.cah.cleaningStep = some .decrement) := by
  intro t
  have ht : t = if c.memory.remainingUses = 0
      then endRecovery (latch .cleaningExpired { withoutMode (memoryRead c s) with cah.state := .held })
      else startNegotiated { withoutMode (memoryRead c s) with cah.state := .negotiated } := by
    simp only [t]
    rw [cmReadEnds_good hn hc, negotiate_cleaning_read (by exact hd) rfl]
    simp [memoryRead, hr]
  by_cases hu : c.memory.remainingUses = 0
  · rw [if_pos hu, endRecovery_idle (by simpa [memoryRead] using hr)] at ht
    have hev : s.events.length = 25 → (flagsOf 22 t.events).latched = true := fun hl => by
      rw [ht]
      exact latched_after (e := .cleaningExpired) (.refl _) (by simpa [memoryRead] using hl)
    rw [eq_true hev, ht]
    simp [memoryRead, hu]
  · rw [if_neg hu] at ht
    by_cases hready : s.frg.condition = .ready
    · rw [startNegotiated_cleaning rfl (by simpa [memoryRead] using hready) (by simp [memoryRead]) hd] at ht
      rw [ht]
      simp [beginCleaning, memoryRead, hu, hready]
    · rw [startNegotiated_stays (.inr (.inl (by simpa [memoryRead] using hready)))] at ht
      rw [ht]
      simp [memoryRead, hu, hready]

/-- A recovered cartridge is HELD once it has been read, and the drive READY (R183, R184). -/
theorem recovered_held {n : Nat} {c : Cartridge} (hn : s.cah.cmReadAttempt = some n) (hc : s.cah.cartridge = some c)
    (hr : s.cah.recovering = true) :
    let t := cmReadEnds true s
    t.cah.state = .held ∧ t.cah.recovering = false ∧ t.frg.condition = .ready ∧ t.cah.cleaningStep = s.cah.cleaningStep
      ∧ (c.memory.cartType = .data → t.cah.mode = some (negotiatedMode (some c.memory) s.cah.writeProtected))
      ∧ (s.events.length = 25 → (flagsOf 18 t.events).latched = true) := by
  intro t
  have hends (u : State) (hu : t = endRecovery u) (hur : u.cah.recovering = true) (hus : u.cah.cleaningStep = s.cah.cleaningStep)
      (hm : c.memory.cartType = .data → u.cah.mode = some (negotiatedMode (some c.memory) s.cah.writeProtected))
      (he : u.events.length = s.events.length) :
      t.cah.state = .held ∧ t.cah.recovering = false ∧ t.frg.condition = .ready ∧ t.cah.cleaningStep = s.cah.cleaningStep
      ∧ (c.memory.cartType = .data → t.cah.mode = some (negotiatedMode (some c.memory) s.cah.writeProtected))
      ∧ (s.events.length = 25 → (flagsOf 18 t.events).latched = true) := by
    obtain ⟨hcah, -, hcond, hrise⟩ := endRecovery_recovering hur
    rw [hu, hcah, hcond]
    exact ⟨rfl, rfl, rfl, hus, hm, fun hl => latched_after hrise (he.trans hl)⟩
  have hg : t = negotiate (memoryRead c s) := cmReadEnds_good hn hc
  by_cases hk : c.memory.cartType = .data
  · rw [negotiate_data (by exact hk)] at hg
    simp only [seatedAs_frame, withMode_frame, memoryRead_frame, hr, if_true] at hg
    exact hends _ hg (by simpa using hr) (by simp) (fun _ => by simp) ((withMode_rises _ _).trans (seatedAs_rises _ _)).1
  · have hc : c.memory.cartType = .cleaning := by cases h : c.memory.cartType <;> simp_all
    rw [negotiate_cleaning_read (by exact hc) rfl] at hg
    simp only [memoryRead_frame, hr, if_true] at hg
    split at hg
    · exact hends _ hg (by simpa using hr) (by simp) (absurd · hk) ((latch_rises _ _).1.trans (by simp))
    · exact hends _ hg (by simpa using hr) (by simp) (absurd · hk) (by simp)

/-- The third failed read of a data cartridge's memory: READ-ONLY with no directory (R131, R133, R187). -/
theorem data_unread (hn : s.cah.cmReadAttempt = some 3) (hk : s.cah.sensedType = some .data) (hr : s.cah.recovering = false)
    (ha : s.cah.autoThread = false) :
    let t := cmReadEnds false s
    t.cah.mode = some (.readOnly .cmUnreadable) ∧ t.cah.state = .negotiated ∧ t.cah.cmReadable = false ∧ t.cah.image = none
      ∧ t.fmc.directoryValid = false ∧ t.frg.condition = s.frg.condition
      ∧ (s.frg.current = none → t.frg.current =
          some [⟨.cmReader, .cmRead, s.timeBase, s.frg.condition, s.moc.motion, s.cah.state⟩]) := by
  intro t
  have ht : t = seatedAs (.readOnly .cmUnreadable) (withMode (.readOnly .cmUnreadable) (memoryUnread s)) := by
    simp only [t]
    rw [cmReadEnds_third hn, negotiate_data_rests (by simp [kindAtSeat, hk]) (by simpa using hr) (by simpa using ha)]
    simp [negotiatedMode]
  rw [ht]
  obtain ⟨hcond, hcurrent⟩ := memoryUnread_frg s
  simp only [seatedAs_frame, withMode_frame, hcond]
  exact ⟨trivial, by simp, by simp, by simp, takeDirectory_none (by simp), trivial, hcurrent⟩

/-- The third failed read of a cleaning cartridge's memory: HELD, and READY where it ends a recovery (R131, R159, R184). -/
theorem cleaning_unread (hn : s.cah.cmReadAttempt = some 3) (hk : s.cah.sensedType = some .cleaning) :
    let t := cmReadEnds false s
    t.cah.state = .held ∧ t.cah.mode = none ∧ t.cah.image = none ∧ t.moc.formatCap = 6
      ∧ (s.events.length = 25 → (flagsOf 21 t.events).latched = true)
      ∧ t.frg.condition = if s.cah.recovering then .ready else s.frg.condition := by
  intro t
  have ht : t = endRecovery (latch .cleaningIncomplete { withoutMode (memoryUnread s) with cah.state := .held }) := by
    simp only [t]
    rw [cmReadEnds_third hn, negotiate_cleaning_unread (by simp [kindAtSeat, hk]) (by simp)]
  have hl : s.events.length = 25 → (withoutMode (memoryUnread s)).events.length = 25 := fun hl => by
    rw [(withoutMode_frame _).2.2.2]
    exact (reportFault_rises .cmReader .cmRead _).1.trans hl
  obtain ⟨hcond, -⟩ := memoryUnread_frg s
  cases hr : s.cah.recovering with
  | true =>
    obtain ⟨hcah, hmoc, hready, hrise⟩ := endRecovery_recovering
      (s := latch .cleaningIncomplete { withoutMode (memoryUnread s) with cah.state := .held }) (by simpa using hr)
    rw [ht, hcah, hmoc, hready]
    exact ⟨rfl, by simp, by simp, by simp, fun h => latched_after ((latch_rises _ _).trans hrise) (hl h), rfl⟩
  | false =>
    rw [ht, endRecovery_idle (by simpa using hr)]
    exact ⟨rfl, by simp, by simp, by simp, fun h => latched_after (e := .cleaningIncomplete) (.refl _) (hl h), by simp [hcond]⟩

/-- Settles O41: what a read of the Cartridge Memory brings is the negotiation that its result gives, by the type of the cartridge and by
whether a recovery ends with it. -/
theorem cartridgeIsSeatedAndNegotiated : Obligations.CartridgeIsSeatedAndNegotiated := by
  refine ⟨fun c s => ⟨fun h => ?_, fun h => ?_⟩, fun s hs => ⟨fun n hn h3 => ?_, fun ok hn => ?_, fun n c hn hc hr hw ha => ?_,
    fun hn hk hr hw ha => ?_, fun hn hk hw => ?_, fun n c hn hc hr hw => ?_⟩⟩
  · simp [exec, execCartridgeInserted, h]
  · simp only [exec, execCartridgeInserted, if_pos h]
    rfl
  · have e : cmReadEnds false s = { s with cah.cmReadAttempt := some (n + 1) } := by simp [cmReadEnds, hn, h3]
    simp only [exec, execCmReadAttemptDone, e]
    rw [settleLibraryWait_none (.inl (by exact hs))]
  · have e : cmReadEnds ok s = s := by simp [cmReadEnds, hn]
    simp only [exec, execCmReadAttemptDone, e]
    rw [settleLibraryWait_none (.inl hs)]
  · refine ⟨exec_cmReadAttemptDone (cmReadEnds_good hn hc) rfl hw, ?_⟩
    cases hd : c.memory.cartType with
    | cleaning =>
      obtain ⟨hreadable, hattempt, hmode, hcap, hnone, hwaits, hbegins⟩ := cleaning_negotiated hn hc hr hd
      exact ⟨hreadable, hattempt, nofun, fun _ => ⟨hmode, hcap, hnone, hwaits, hbegins⟩⟩
    | data =>
      obtain ⟨hcah, hmoc, hfmc, hheld, hrise⟩ := data_negotiated hn hc hr ha hd
      obtain ⟨hfour, hthree, hother⟩ := negotiatedMode_eq c.memory s.cah.writeProtected
      rw [hcah, hmoc, hfmc]
      refine ⟨rfl, rfl, fun _ => ⟨rfl, rfl, rfl, fun h => ?_, fun h => ?_, fun h3 h4 => ?_, fun ho => ?_, fun ho => ?_⟩, nofun⟩
      · rw [hfour h]
        split <;> simp [formatCapOf]
      · rw [hthree h]
        simp [formatCapOf]
      · refine ⟨congrArg some (hother h3 h4), by simp [hother h3 h4], hheld (hother h3 h4)⟩
      · cases hb : blankMemory c.memory with
        | true =>
          obtain ⟨hdir, heod, hvalid, hmarks⟩ := takeDirectory_blank (s := { memoryRead c s with
            cah.mode := some (negotiatedMode (some c.memory) s.cah.writeProtected)
            cah.negotiated := some (negotiatedMode (some c.memory) s.cah.writeProtected) }) rfl ho hb
          exact ⟨hvalid, fun _ => ⟨hdir, heod, hmarks⟩, fun h => absurd ((blankMemory_iff _).1 hb) (by tauto)⟩
        | false =>
          obtain ⟨hdir, heod, hvalid, hmarks⟩ := takeDirectory_copy (s := { memoryRead c s with
            cah.mode := some (negotiatedMode (some c.memory) s.cah.writeProtected)
            cah.negotiated := some (negotiatedMode (some c.memory) s.cah.writeProtected) }) rfl ho hb
          exact ⟨hvalid, fun h => absurd ((blankMemory_iff _).2 h) (by simp [hb]), fun _ => ⟨hdir, heod, hmarks⟩⟩
      · obtain ⟨hdir, heod, hvalid, hlatched⟩ := takeDirectory_sessionOpen (s := { memoryRead c s with
          cah.mode := some (negotiatedMode (some c.memory) s.cah.writeProtected)
          cah.negotiated := some (negotiatedMode (some c.memory) s.cah.writeProtected) }) rfl ho
        exact ⟨hdir, heod, hvalid, fun hl => hrise.2 _ (hlatched hl)⟩
  · obtain ⟨hmode, hstate, hread, himage, hvalid, hcond, hcurrent⟩ := data_unread hn hk hr ha
    exact ⟨exec_cmReadAttemptDone (cmReadEnds_third hn) (by simp) hw, hmode, hstate, hread, himage, hvalid, hcond, hs ▸ hcurrent⟩
  · exact ⟨exec_cmReadAttemptDone (cmReadEnds_third hn) (by simp) hw, cleaning_unread hn hk⟩
  · exact ⟨exec_cmReadAttemptDone (cmReadEnds_good hn hc) rfl hw, recovered_held hn hc hr⟩

end Sys2Proof.Machine
end

section
/-! SUPPORT. A medium command that is taken, and the drop of either side of the Data Buffer; Flush and Discard Buffer (R48, R60, R79,
R83, R84). -/

namespace Sys2Proof.Machine

/-! ## A command that begins (R79, R99, R171) -/

section
variable {s : State}

theorem waitsForLibrary_none (h : libraryOperation s = false) (c : MedCmd) : waitsForLibrary c s = false := by
  simp [waitsForLibrary, h]

/-- In READY a threaded tape with no report passes the tests that come before a command's own. -/
theorem driveTest_threaded (hc : s.frg.condition = .ready) (ht : s.cah.state = .threaded) : driveTest s = none := by
  simp [driveTest, hc, ht]

theorem tested_takes {k : State → State} (hc : s.frg.condition = .ready) (ht : s.cah.state = .threaded) (hr : s.wch.report = none) :
    tested none k s = k s := by
  simp [tested, driveTest_threaded hc ht, hr]

theorem tested_refuses {k : State → State} {o : OutcomeBlock} (hc : s.frg.condition = .ready) (ht : s.cah.state = .threaded)
    (hr : s.wch.report = none) : tested (some o) k s = endHead o s := by
  simp [tested, driveTest_threaded hc ht, hr]

variable {tag : Tag}

theorem flush_begins (h : HeadFree tag s) :
    exec (.flush tag) s = .next (finish (tested (suspendTest (taken tag .flush s)) takeFlush (taken tag .flush s))) := by
  obtain ⟨⟨-, -, hready⟩, -, -, hlib⟩ := id h
  refine (mediumIn_free h).trans ?_
  simp [beginCommand, waitsForLibrary_none (s := taken tag .flush s) hlib, hready]

theorem discardBuffer_begins (h : HeadFree tag s) (hs : s.cah.state ≠ .cleaning) :
    exec (.discardBuffer tag) s = .next (finish (takeDiscard (taken tag .discardBuffer s))) := by
  obtain ⟨⟨-, -, hready⟩, -, -, hlib⟩ := id h
  refine (mediumIn_free h).trans ?_
  simp [beginCommand, waitsForLibrary_none (s := taken tag .discardBuffer s) hlib, hready, hs]

theorem discardBuffer_in_cleaning (h : HeadFree tag s) (hs : s.cah.state = .cleaning) :
    exec (.discardBuffer tag) s = .next (finish (answered tag .discardBuffer (.sense (sense .cleaningRuns)) s)) := by
  obtain ⟨⟨-, -, hready⟩, -, -, hlib⟩ := id h
  refine (mediumIn_free h).trans ?_
  simp [beginCommand, waitsForLibrary_none (s := taken tag .discardBuffer s) hlib, hready, hs, refuseHead, endHead_taken h]

/-- The one command in hand is answered on a link that is UP, and leaves the queue empty. -/
theorem endHead_sends {c : MedCmd} (o : OutcomeBlock) (hq : s.dlp.queue = [⟨tag, c⟩]) (hl : s.dlp.link = .up)
    (ha : s.dlp.run.answered = false) (hm : s.dlp.run.mute = false) :
    (endHead o s).out = s.out ++ [.reply tag ⟨o, resultsOf c (headFigure c s) s⟩] ∧ (endHead o s).dlp.queue = [] := by
  unfold endHead finishHead
  simp [hq, ha, hm, reply_up hl, emit, dropTag]

end

/-! ## The read side (R48, R96) -/

section
variable (s : State)

/-- The drop of the read side empties its ring, counts the slots where they are to be counted, and ends read-ahead. -/
@[simp] theorem dropReadSide_frame (count : Bool) : (dropReadSide count s).out = s.out ∧ (dropReadSide count s).dlp = s.dlp
    ∧ (dropReadSide count s).fmc = s.fmc ∧ (dropReadSide count s).wch = s.wch ∧ (dropReadSide count s).moc = s.moc
    ∧ (dropReadSide count s).cah = s.cah ∧ (dropReadSide count s).frg = s.frg
    ∧ (dropReadSide count s).dbf.readRing = [] ∧ (dropReadSide count s).dbf.readAheadActive = false
    ∧ (dropReadSide count s).dbf.readSideDrops = s.dbf.readSideDrops + (if count then s.dbf.readRing.length else 0)
    ∧ (dropReadSide count s).dbf.writeRing = s.dbf.writeRing ∧ (dropReadSide count s).dbf.staging = s.dbf.staging
    ∧ (dropReadSide count s).dbf.flush = s.dbf.flush ∧ (dropReadSide count s).cpe.intake = s.cpe.intake
    ∧ (dropReadSide count s).cpe.carryEntries = s.cpe.carryEntries ∧ (dropReadSide count s).cpe.carryPayload = s.cpe.carryPayload
    ∧ (dropReadSide count s).cpe.closeAfter = s.cpe.closeAfter := by
  unfold dropReadSide stopCollecting stopUnpacking dropPositionSearch
  dsimp only
  repeat' split
  all_goals simp

/-! ## The write side (R60, R84) -/

/-- A grant of credits sends one frame and raises what is outstanding (R51). -/
@[simp] theorem grantCredits_frame : (grantCredits s).dbf = s.dbf ∧ (grantCredits s).cpe = s.cpe ∧ (grantCredits s).fmc = s.fmc
    ∧ (grantCredits s).wch = s.wch ∧ (grantCredits s).moc = s.moc ∧ (grantCredits s).cah = s.cah ∧ (grantCredits s).frg = s.frg
    ∧ (grantCredits s).dlp.link = s.dlp.link ∧ (grantCredits s).dlp.queue = s.dlp.queue ∧ (grantCredits s).dlp.run = s.dlp.run := by
  unfold grantCredits
  dsimp only
  split <;> simp

/-- The write side, its numbering apart, is empty, and the Write Channel holds nothing of it. -/
structure WriteSideDropped (s : State) : Prop where
  ring : s.dbf.writeRing = []
  staging : s.dbf.staging = []
  flush : s.dbf.flush = false
  intake : s.cpe.intake = []
  carry : s.cpe.carryEntries = []
  closing : s.cpe.closeAfter = none
  stop : s.wch.endOfMediumStop = false
  rewrites : s.wch.rewriteQueue = []
  abandon : s.wch.abandon = none

/-- A state whose buffer, engine and channel differ from a dropped one in nothing of the write side is dropped too. -/
theorem WriteSideDropped.of_eq {s t : State} (h : WriteSideDropped s) (hw : t.dbf.writeRing = s.dbf.writeRing)
    (hs : t.dbf.staging = s.dbf.staging) (hf : t.dbf.flush = s.dbf.flush) (hi : t.cpe.intake = s.cpe.intake)
    (hc : t.cpe.carryEntries = s.cpe.carryEntries) (ha : t.cpe.closeAfter = s.cpe.closeAfter)
    (he : t.wch.endOfMediumStop = s.wch.endOfMediumStop) (hr : t.wch.rewriteQueue = s.wch.rewriteQueue)
    (hb : t.wch.abandon = s.wch.abandon) : WriteSideDropped t :=
  ⟨hw.trans h.ring, hs.trans h.staging, hf.trans h.flush, hi.trans h.intake, hc.trans h.carry, ha.trans h.closing, he.trans h.stop,
    hr.trans h.rewrites, hb.trans h.abandon⟩

/-- Engine, buffers and channel as a discard empties them, before the numbering, the direction and the tape (R60). -/
def writeSideEmptied (s : State) : State :=
  discardChannel (grantCredits { discardEngine s with dbf.staging := [], dbf.writeRing := [] })

theorem writeSideEmptied_drops : WriteSideDropped (writeSideEmptied s) where
  ring := by simp [writeSideEmptied, discardChannel, voidEntries]
  staging := by simp [writeSideEmptied, discardChannel, voidEntries]
  flush := by simp [writeSideEmptied, discardChannel, voidEntries, discardEngine]
  intake := by simp [writeSideEmptied, discardChannel, voidEntries, discardEngine]
  carry := by simp [writeSideEmptied, discardChannel, voidEntries, discardEngine]
  closing := by simp [writeSideEmptied, discardChannel, voidEntries, discardEngine]
  stop := rfl
  rewrites := rfl
  abandon := rfl

@[simp] theorem writeSideEmptied_frame : (writeSideEmptied s).fmc = s.fmc ∧ (writeSideEmptied s).dbf.readRing = s.dbf.readRing
    ∧ (writeSideEmptied s).dbf.readSideDrops = s.dbf.readSideDrops ∧ (writeSideEmptied s).dlp.link = s.dlp.link
    ∧ (writeSideEmptied s).dlp.queue = s.dlp.queue ∧ (writeSideEmptied s).dlp.run = s.dlp.run := by
  simp [writeSideEmptied, discardChannel, voidEntries, discardEngine]

/-- The numbering set back counts what was held as discarded, and goes back to the end of data (R20, R21). -/
@[simp] theorem discardNumbering_frame : (discardNumbering s).out = s.out ∧ (discardNumbering s).dlp = s.dlp
    ∧ (discardNumbering s).dbf = s.dbf ∧ (discardNumbering s).cpe = s.cpe ∧ (discardNumbering s).wch = s.wch
    ∧ (discardNumbering s).fmc.discarded = s.fmc.discarded + held s ∧ (discardNumbering s).fmc.position = s.fmc.eod.nextObject
    ∧ (discardNumbering s).fmc.nextObject = s.fmc.eod.nextObject ∧ (discardNumbering s).fmc.accepted = s.fmc.accepted
    ∧ (discardNumbering s).fmc.committed = s.fmc.committed := by
  simp [discardNumbering]

theorem discardNumbering_nextDsn : (discardNumbering s).fmc.nextDsn = dsnAfter s.fmc.eod := by
  unfold discardNumbering
  simp only [setEarlyWarning_frame]
  rfl

/-- The fields of the write side, the read side and the command at the head that the end of a discard leaves: it settles the direction
and calls for an EOD frame or stops the tape. -/
structure DiscardLeaves (s t : State) : Prop where
  write : WriteSideDropped s → WriteSideDropped t
  readRing : t.dbf.readRing = s.dbf.readRing
  drops : t.dbf.readSideDrops = s.dbf.readSideDrops
  link : t.dlp.link = s.dlp.link
  queue : t.dlp.queue = s.dlp.queue
  run : t.dlp.run = s.dlp.run

theorem DiscardLeaves.trans {s t u : State} (h : DiscardLeaves s t) (g : DiscardLeaves t u) : DiscardLeaves s u :=
  ⟨g.write ∘ h.write, g.readRing.trans h.readRing, g.drops.trans h.drops, g.link.trans h.link, g.queue.trans h.queue, g.run.trans h.run⟩

theorem settleDirection_leaves : DiscardLeaves s (settleDirection s) :=
  ⟨fun h => h.of_eq (by simp) (by simp) (by simp) (by simp) (by simp) (by simp) (by simp) (by simp) (by simp), by simp, by simp, by simp,
    by simp, by simp⟩

theorem planEod_leaves (c : EodCause) : DiscardLeaves s (planEod c s) :=
  ⟨fun h => h.of_eq rfl rfl rfl rfl rfl rfl rfl rfl rfl, rfl, rfl, rfl, rfl, rfl⟩

theorem stopWriting_leaves : DiscardLeaves s (stopWriting s) :=
  ⟨fun h => h.of_eq (by simp) (by simp) (by simp) (by simp) (by simp) (by simp) (by simp) (by simp) (by simp), by simp, by simp, by simp,
    by simp, by simp⟩

theorem discardNumbering_leaves : DiscardLeaves s (discardNumbering s) :=
  ⟨fun h => h.of_eq (by simp) (by simp) (by simp) (by simp) (by simp) (by simp) (by simp) (by simp) (by simp), by simp, by simp, by simp,
    by simp, by simp⟩

/-- The emptied write side with its numbering, set back where it held something (R20, R60). -/
def renumbered (s : State) : State :=
  if writeSideEmpty s then writeSideEmptied s else discardNumbering (writeSideEmptied s)

theorem renumbered_leaves : DiscardLeaves (writeSideEmptied s) (renumbered s) := by
  unfold renumbered
  split
  · exact ⟨id, rfl, rfl, rfl, rfl, rfl⟩
  · exact discardNumbering_leaves _

theorem discardWriteSide_eq : discardWriteSide s =
    let t := settleDirection (renumbered s)
    if t.cah.state = .threaded ∧ eodWanted t ∧ t.wch.writer ≠ .ending ∧ t.moc.motion ≠ .halted then planEod .discard t
    else if s.wch.writer = .writing ∨ s.wch.writer = .starting then stopWriting t
    else t := rfl

/-- The end of a discard: an EOD frame that is called for, or a stop, or nothing. -/
theorem discardWriteSide_ends : DiscardLeaves (settleDirection (renumbered s)) (discardWriteSide s)
    ∧ (discardWriteSide s).fmc = (renumbered s).fmc := by
  have hfmc : (settleDirection (renumbered s)).fmc = (renumbered s).fmc := by simp
  rw [discardWriteSide_eq]
  dsimp only
  split
  · exact ⟨planEod_leaves _ _, hfmc⟩
  · split
    · exact ⟨stopWriting_leaves _, by simp⟩
    · exact ⟨⟨id, rfl, rfl, rfl, rfl, rfl⟩, hfmc⟩

/-- A discard empties the write side, and leaves the read side and the command at the head (R60, R84). -/
theorem discardWriteSide_leaves : DiscardLeaves (writeSideEmptied s) (discardWriteSide s) :=
  ((renumbered_leaves s).trans (settleDirection_leaves _)).trans (discardWriteSide_ends s).1

theorem discardWriteSide_fmc_empty (h : writeSideEmpty s = true) : (discardWriteSide s).fmc = s.fmc := by
  simp [(discardWriteSide_ends s).2, renumbered, h]

theorem discardWriteSide_fmc (h : writeSideEmpty s = false) :
    (discardWriteSide s).fmc = (discardNumbering (writeSideEmptied s)).fmc := by
  simp [(discardWriteSide_ends s).2, renumbered, h]

/-! ## A flush stays demanded while the engine settles (R34) -/

@[simp] theorem changeFilling_flush (f : Slot → Slot) : (changeFilling f s).dbf.flush = s.dbf.flush := rfl

@[simp] theorem openDataSet_flush : (openDataSet s).dbf.flush = s.dbf.flush := by
  unfold openDataSet
  split <;> simp

@[simp] theorem closeDataSet_flush : (closeDataSet s).dbf.flush = s.dbf.flush := by
  unfold closeDataSet
  repeat' split
  all_goals simp

@[simp] theorem placeFilemark_flush : (placeFilemark s).dbf.flush = s.dbf.flush := by
  unfold placeFilemark dropIntake addEntry
  dsimp only
  repeat' split
  all_goals simp

@[simp] theorem drainFrom_flush (n : Nat) (s : State) : (drainFrom n s).dbf.flush = s.dbf.flush := by
  induction n generalizing s with
  | zero => rfl
  | succ n ih =>
    unfold drainFrom
    dsimp only
    repeat' split
    all_goals simp [ih]

@[simp] theorem settleEngine_flush : (settleEngine s).dbf.flush = s.dbf.flush := by
  unfold settleEngine
  dsimp only
  repeat' split
  all_goals simp

theorem demandFlush_flush : (demandFlush s).dbf.flush = true := by
  unfold demandFlush
  split <;> simp_all

end

/-! ## Discard Buffer at the head (R60) -/

section
variable (s : State)

/-- The two sides as Discard Buffer drops them, before the command is answered or waits. -/
def bothDropped (s : State) : State :=
  let t := discardAndClear s
  { (if t.dbf.readRing.isEmpty then t else dropReadSide true t) with dlp.run.accepted := held s }

theorem takeDiscard_eq : takeDiscard s =
    if writerBusy (bothDropped s) then setPhase .waitFlush (bothDropped s) else endHead .good (bothDropped s) := rfl

theorem discardAndClear_leaves : DiscardLeaves (discardWriteSide s) (discardAndClear s) :=
  ⟨fun h => h.of_eq rfl rfl rfl rfl rfl rfl rfl rfl rfl, rfl, rfl, rfl, rfl, rfl⟩

theorem discardAndClear_drops : WriteSideDropped (discardAndClear s) :=
  (discardAndClear_leaves s).write ((discardWriteSide_leaves s).write (writeSideEmptied_drops s))

theorem dropReadSide_drops (h : WriteSideDropped s) (count : Bool) : WriteSideDropped (dropReadSide count s) :=
  h.of_eq (by simp) (by simp) (by simp) (by simp) (by simp) (by simp) (by simp) (by simp) (by simp)

theorem bothDropped_drops : WriteSideDropped (bothDropped s) := by
  unfold bothDropped
  dsimp only
  split
  · exact (discardAndClear_drops s).of_eq rfl rfl rfl rfl rfl rfl rfl rfl rfl
  · exact (dropReadSide_drops _ (discardAndClear_drops s) true).of_eq rfl rfl rfl rfl rfl rfl rfl rfl rfl

/-- Both sides dropped: no read side, no report, the numbering of the discard, and the command at the head as it stood. -/
theorem bothDropped_leaves : (bothDropped s).dbf.readRing = [] ∧ (bothDropped s).wch.report = none
    ∧ (bothDropped s).dbf.readSideDrops = s.dbf.readSideDrops + s.dbf.readRing.length
    ∧ (bothDropped s).fmc = (discardWriteSide s).fmc ∧ (bothDropped s).dlp.link = s.dlp.link
    ∧ (bothDropped s).dlp.queue = s.dlp.queue ∧ (bothDropped s).dlp.run = { s.dlp.run with accepted := held s } := by
  have h := ((discardWriteSide_leaves s).trans (discardAndClear_leaves s))
  have hreport : (discardAndClear s).wch.report = none := rfl
  have hfmc : (discardAndClear s).fmc = (discardWriteSide s).fmc := rfl
  unfold bothDropped
  dsimp only
  split
  · rename_i he
    have hnil : s.dbf.readRing = [] := by simpa [h.readRing] using he
    simp [h.readRing, h.drops, h.link, h.queue, h.run, hreport, hfmc, hnil]
  · simp [h.readRing, h.drops, h.link, h.queue, h.run, hreport, hfmc]

/-- Whether the command is answered or waits, the drive is left as the drop of both sides leaves it. -/
theorem takeDiscard_leaves : (takeDiscard s).dbf = (bothDropped s).dbf ∧ (takeDiscard s).cpe = (bothDropped s).cpe
    ∧ (takeDiscard s).wch = (bothDropped s).wch ∧ (takeDiscard s).fmc = (bothDropped s).fmc := by
  rw [takeDiscard_eq]
  split <;> simp

theorem takeDiscard_busy : writerBusy (takeDiscard s) = writerBusy (bothDropped s) := by
  simp only [writerBusy, (takeDiscard_leaves s).2.2.1]

end

/-- Settles O36. Flush goes through the tests of R79; Discard Buffer drops both sides (`bothDropped`), and is answered or waits for its
EOD frame. -/
theorem flushAndDiscardBuffer : Obligations.FlushAndDiscardBuffer := by
  intro tag s
  refine ⟨?_, ?_, ?_⟩
  · rintro ⟨hfree, hthreaded, hreport⟩ hstop hmode
    have hexec : exec (.flush tag) s = .next (finish (takeFlush (taken tag .flush s))) := by
      rw [flush_begins hfree, show suspendTest (taken tag .flush s) = none by simp [suspendTest, hstop, hmode],
        tested_takes (by exact hfree.1.2.2) (by exact hthreaded) (by exact hreport)]
    refine ⟨fun he => ?_, fun he => ⟨?_, demandFlush_flush _⟩⟩
    · rw [hexec, takeFlush, if_pos (by exact he), endHead_taken hfree]
      rfl
    · rw [hexec, takeFlush, if_neg (by rw [show writeSideEmpty (taken tag .flush s) = false from he]; decide)]
  · intro hfree hcleaning
    have hexec := discardBuffer_begins hfree hcleaning
    obtain ⟨⟨hlink, -, -⟩, -, hrun, -⟩ := hfree
    obtain ⟨hreadRing, hreport, hdrops, hfmc, hdlink, hqueue, hdrun⟩ := bothDropped_leaves (taken tag .discardBuffer s)
    obtain ⟨hring, hstaging, hflush, hintake, hcarry, hclosing, hstop, hrewrites, habandon⟩ :=
      bothDropped_drops (taken tag .discardBuffer s)
    obtain ⟨hout, hleft⟩ := endHead_sends .good hqueue (hdlink.trans hlink) (by rw [hdrun]; exact congrArg Run.answered hrun)
      (by rw [hdrun]; exact congrArg Run.mute hrun)
    obtain ⟨hd, hc, hw, hf⟩ := takeDiscard_leaves (taken tag .discardBuffer s)
    dsimp only
    rw [takeDiscard_busy, hd, hc, hw, hf, hfmc]
    refine ⟨hexec, hring, hstaging, hreadRing, hintake, hcarry, hclosing, hflush, hreport, hstop, hrewrites, habandon, hdrops,
      fun he => discardWriteSide_fmc_empty _ he, fun he => ?_, fun hbusy => ?_, fun hbusy => ?_⟩
    · rw [discardWriteSide_fmc _ (by exact he), discardNumbering_nextDsn]
      simp [held]
      rfl
    · rw [takeDiscard_eq, hbusy]
      simp only [Bool.false_eq_true, if_false]
      rw [hout, hleft]
      simp [resultsOf, headFigure, hdrun, held]
    · rw [takeDiscard_eq, hbusy]
      exact ⟨rfl, hqueue⟩
  · intro hfree hcleaning
    exact discardBuffer_in_cleaning hfree hcleaning

end Sys2Proof.Machine
end

section
/-! SUPPORT. The append point of Write Records and Write Filemarks (R18, R19, R47, R48, R79, R80, R82). -/

namespace Sys2Proof.Machine

/-! ## What a write command does once taken -/

section
variable {s : State}

theorem takeWrite_continues (he : writeSideEmpty s = false) : takeWrite s = queueFilemarks { s with dbf.direction := .write } := by
  simp [takeWrite, he]

theorem takeWrite_appends (he : writeSideEmpty s = true) (hp : s.fmc.position ≠ 0) (hv : s.fmc.directoryValid = true)
    (ha : appendsAtEod s = true) (hr : appendRefused s = false) : takeWrite s = appendSet (appendAtEod s) := by
  have hnow : appendsAtOnce s = true := by simp [appendsAtOnce, hp, hv, ha]
  simp [takeWrite, he, hnow, beginAppend, hv, setAppendPoint, hp, hr, ha]

theorem takeWrite_waits (he : writeSideEmpty s = true) (hp : s.fmc.position = 0) (hb : writerBusy s = true) :
    takeWrite s = setPhase .waitTape s := by
  simp [takeWrite, he, hb, appendsAtOnce, hp]

theorem takeWrite_fromBot (he : writeSideEmpty s = true) (hp : s.fmc.position = 0) (hb : writerBusy s = false) :
    takeWrite s = appendSet (overwriteFromBot s) := by
  simp [takeWrite, he, hb, beginAppend, setAppendPoint, hp]

theorem takeWrite_overwrites (he : writeSideEmpty s = true) (hp : s.fmc.position ≠ 0) (hv : s.fmc.directoryValid = true)
    (hb : writerBusy s = false) (ha : appendsAtEod s = false) : takeWrite s = setOverwrite s.fmc.position s := by
  simp [takeWrite, he, hb, beginAppend, hv, setAppendPoint, hp, appendRefused, ha]

theorem setOverwrite_known {n m : Nat} {d : Slot} {p : Place} (hd : slotHolding n s = some d) (hk : knownHolder n d s = true)
    (hm : knownMarks d.dsn s = some m) (hp : d.startPlace = some p) :
    setOverwrite n s = overwriteAt d.dsn (d.firstObject.getD 0) m n (unendedBefore d.dsn s) d.entries d.payload p s := by
  simp [setOverwrite, hd, hk, hm, hp]

theorem setOverwrite_searches {n : Nat} (hd : slotHolding n s = none) :
    setOverwrite n s = beginSearch (.append n 0) none { dropReadSide true s with dlp.run.phase := .appendScan } := by
  simp [setOverwrite, hd]

/-! ## The tests of R79 and R82 -/

/-- A READ/WRITE tape with no End of Medium stop is tested by the command's own fields and by the room at its append point. -/
theorem writeTest_fields (hm : s.cah.mode = some .readWrite) (hs : s.wch.endOfMediumStop = false) (c : MedCmd) :
    writeTest c s = (writeFieldTest c <|> appendTest s) := by
  simp [writeTest, suspendTest, protectTest, hm, hs]

variable {tag : Tag} {c : MedCmd}

theorem writeFilemarks_begins {sync : Bool} {n : Nat} (h : HeadFree tag s) :
    let f := taken tag (.writeFilemarks sync n) s
    exec (.writeFilemarks tag sync n) s = .next (finish (tested (writeTest (.writeFilemarks sync n) f) takeWrite f)) := by
  obtain ⟨⟨-, -, hready⟩, -, -, hlib⟩ := id h
  refine (mediumIn_free h).trans ?_
  simp [beginCommand, waitsForLibrary_none (s := taken tag (.writeFilemarks sync n) s) hlib, hready]

/-- A Write Records just taken, with the lengths it is to receive. -/
abbrev recordsTaken (tag : Tag) (unbuffered : Bool) (ls : List Nat) (s : State) : State :=
  { taken tag (.writeRecords unbuffered ls) s with dlp.run.lengths := ls }

theorem writeRecords_begins {unbuffered : Bool} {ls : List Nat} (h : HeadFree tag s) :
    exec (.writeRecords tag unbuffered ls) s = .next (finish (tested
      (writeTest (.writeRecords unbuffered ls) (taken tag (.writeRecords unbuffered ls) s)) takeWrite (recordsTaken tag unbuffered ls s))) := by
  obtain ⟨⟨-, -, hready⟩, -, -, hlib⟩ := id h
  refine (mediumIn_free h).trans ?_
  rw [beginCommand, if_neg (by simp [hready]), if_neg (by simp [waitsForLibrary_none (s := taken tag (.writeRecords unbuffered ls) s) hlib])]

/-- A refused Write Records is answered as it was taken: what it was to receive does not show in the answer. -/
theorem endHead_recordsTaken {unbuffered : Bool} {ls : List Nat} (o : OutcomeBlock) (h : HeadFree tag s) :
    endHead o (recordsTaken tag unbuffered ls s) = answered tag (.writeRecords unbuffered ls) o s := by
  have hrun : s.dlp.run = {} := h.2.2.1
  rw [← endHead_taken h]
  unfold endHead finishHead reply
  simp [hrun, h.1.1, headFigure, resultsOf, emit, dropTag]

end

/-! ## The append point is set (R47, R48, R80) -/

section
variable {s : State}

/-- Nothing waits for the engine but dropped objects. -/
abbrev NothingWaits (s : State) : Prop := ∀ x ∈ s.cpe.intake, x.live = false

theorem NothingWaits.of_writeSideEmpty (h : writeSideEmpty s = true) : NothingWaits s := by
  simp only [writeSideEmpty, Bool.and_eq_true, List.all_eq_true] at h
  obtain ⟨⟨-, hwaits⟩, -⟩ := h
  exact fun x hx => by simpa using hwaits x hx

theorem accept_dropped {x : Intake} (h : x.live = false) : x.accept = x := by
  cases x with
  | filemark _ => cases h
  | record _ _ _ _ _ _ dropped =>
    cases dropped with
    | false => cases h
    | true => rfl

/-- With nothing that waits, no record becomes Accepted. -/
theorem acceptWaiting_nothing (h : NothingWaits s) : acceptWaiting s = s := by
  have hkeep : s.cpe.intake.map Intake.accept = s.cpe.intake :=
    (List.map_congr_left fun x hx => accept_dropped (h x hx)).trans (List.map_id _)
  have hwhole (f : Intake → Bool) (hf : ∀ x, x.live = false → f x = false) : (s.cpe.intake.filter f).length = 0 := by
    rw [List.length_eq_zero_iff, List.filter_eq_nil_iff]
    exact fun x hx => by simp [hf x (h x hx)]
  unfold acceptWaiting
  rw [hkeep, hwhole]
  · rfl
  · intro x hx
    cases x with
    | filemark _ => rfl
    | record _ _ _ _ _ accepted dropped =>
      cases dropped with
      | false => cases hx
      | true => cases accepted <;> rfl

/-- The read side dropped, its search and its motion ended, and the direction WRITE: what a write command goes on from. -/
def appendReady (s : State) : State := { settleMotion (dropReadSide true (endSearch s)) with dbf.direction := .write }

@[simp] theorem appendReady_frame (s : State) : (appendReady s).out = s.out ∧ (appendReady s).dlp = s.dlp
    ∧ (appendReady s).fmc = s.fmc ∧ (appendReady s).wch = s.wch ∧ (appendReady s).dbf.direction = .write
    ∧ (appendReady s).dbf.readRing = [] ∧ (appendReady s).dbf.readAheadActive = false
    ∧ (appendReady s).dbf.readSideDrops = s.dbf.readSideDrops + s.dbf.readRing.length
    ∧ (appendReady s).cpe.intake = s.cpe.intake ∧ (appendReady s).cpe.carryEntries = s.cpe.carryEntries
    ∧ (appendReady s).cpe.carryPayload = s.cpe.carryPayload := by
  simp [appendReady, endSearch]

theorem queueFilemarks_records {tag : Tag} {u : Bool} {ls : List Nat} (hq : s.dlp.queue = [⟨tag, .writeRecords u ls⟩]) :
    queueFilemarks s = setPhase .receiving s := by
  simp [queueFilemarks, hq, setPhase]

theorem queueFilemarks_filemarks {tag : Tag} {sync : Bool} {n : Nat} (hq : s.dlp.queue = [⟨tag, .writeFilemarks sync n⟩]) :
    queueFilemarks s = setPhase .placing { s with cpe.intake := s.cpe.intake ++ List.replicate n (.filemark tag) } := by
  simp [queueFilemarks, hq, setPhase]

theorem appendSet_eq (h : NothingWaits s) : appendSet s = queueFilemarks (appendReady s) := by
  rw [appendSet]
  exact congrArg queueFilemarks (acceptWaiting_nothing (s := appendReady s) (by simpa [NothingWaits] using h))

/-- A Write Records goes on to receive at its append point. -/
theorem appendSet_records {tag : Tag} {u : Bool} {ls : List Nat} (h : NothingWaits s)
    (hq : s.dlp.queue = [⟨tag, .writeRecords u ls⟩]) : appendSet s = setPhase .receiving (appendReady s) := by
  rw [appendSet_eq h, queueFilemarks_records (by simpa using hq)]

/-- A Write Filemarks hands its filemarks to the engine. -/
theorem appendSet_filemarks {tag : Tag} {sync : Bool} {n : Nat} (h : NothingWaits s)
    (hq : s.dlp.queue = [⟨tag, .writeFilemarks sync n⟩]) : appendSet s =
      setPhase .placing { appendReady s with cpe.intake := s.cpe.intake ++ List.replicate n (.filemark tag) } := by
  rw [appendSet_eq h, queueFilemarks_filemarks (by simpa using hq)]
  simp

/-! ## The map of the tape (R18, R19) -/

/-- The append at the end of data numbers on from the EOD position, and moves the next place there unless an EOD frame keeps it (R77). -/
@[simp] theorem appendAtEod_frame (s : State) : (appendAtEod s).out = s.out ∧ (appendAtEod s).dlp = s.dlp
    ∧ (appendAtEod s).dbf = s.dbf ∧ (appendAtEod s).cpe = s.cpe
    ∧ (appendAtEod s).wch = { s.wch with nextPlace := if s.wch.eodPlan.isSome then s.wch.nextPlace else s.fmc.eod.place }
    ∧ (appendAtEod s).fmc = { s.fmc with nextDsn := dsnAfter s.fmc.eod, nextObject := s.fmc.eod.nextObject } :=
  ⟨rfl, rfl, rfl, rfl, rfl, rfl⟩

/-- The map of an overwrite from BOT is empty (R18). -/
@[simp] theorem overwriteFromBot_frame (s : State) : (overwriteFromBot s).out = s.out ∧ (overwriteFromBot s).dlp = s.dlp
    ∧ (overwriteFromBot s).dbf = s.dbf ∧ (overwriteFromBot s).cpe = s.cpe
    ∧ (overwriteFromBot s).wch = { s.wch with eodCurrent := false, nextPlace := EodPos.empty.place }
    ∧ (overwriteFromBot s).fmc = { s.fmc with
        directory := [], eod := EodPos.empty, filemarks := 0, nextDsn := 0, nextObject := 0, directoryValid := true
        earlyWarning := earlyWarningAt EodPos.empty } := by
  simp [overwriteFromBot]

/-- The map truncated at a data set ends before it (R19). -/
@[simp] theorem truncateMap_frame (d first marks n : Nat) (unended : Bool) (p : Place) (s : State) :
    (truncateMap d first marks n unended p s).out = s.out ∧ (truncateMap d first marks n unended p s).dlp = s.dlp
    ∧ (truncateMap d first marks n unended p s).dbf = s.dbf ∧ (truncateMap d first marks n unended p s).cpe = s.cpe
    ∧ (truncateMap d first marks n unended p s).wch = { s.wch with eodCurrent := false, nextPlace := p }
    ∧ (truncateMap d first marks n unended p s).fmc = { s.fmc with
        directory := truncateDirectory p.wrap d unended s.fmc.directory
        eod := ⟨p.wrap, p.lpos, if d = 0 then none else some (d - 1), first, unended⟩
        filemarks := marks, nextDsn := d, nextObject := n
        earlyWarning := earlyWarningAt ⟨p.wrap, p.lpos, if d = 0 then none else some (d - 1), first, unended⟩ } := by
  simp [truncateMap]

/-- No entry of a truncated directory lies on a later wrap. -/
theorem truncateDirectory_wrap {w d : Nat} {unended : Bool} {dir : List DirEntry} {e : DirEntry}
    (he : e ∈ truncateDirectory w d unended dir) : e.wrap ≤ w := by
  simp only [truncateDirectory, List.mem_filterMap, List.mem_filter, decide_eq_true_eq] at he
  obtain ⟨x, ⟨-, hx⟩, he⟩ := he
  split at he
  · split at he
    · cases he
    · cases he; exact hx
  · cases he; exact hx

/-- An overwrite at a boundary carries nothing. -/
theorem entriesBelow_self (n : Nat) (es : List Entry) : entriesBelow n n es = [] := by
  cases es with
  | nil => rfl
  | cons e es => simp [entriesBelow, numbered]

end

/-! ## The commands at the append point -/

section
variable {s : State} {tag : Tag}

/-- A Write Records that passes the tests of R79 is taken. -/
theorem writeRecords_taken {unbuffered : Bool} {ls : List Nat} (h : Served tag s) (hm : s.cah.mode = some .readWrite)
    (hs : s.wch.endOfMediumStop = false) (hc : badRecordCount ls = false) (hl : firstBadLength ls = none)
    (hr : appendRefused s = false) :
    exec (.writeRecords tag unbuffered ls) s = .next (finish (takeWrite (recordsTaken tag unbuffered ls s))) := by
  obtain ⟨hfree, hthreaded, hreport⟩ := h
  have hr' : appendRefused (taken tag (.writeRecords unbuffered ls) s) = false := hr
  rw [writeRecords_begins hfree, writeTest_fields (by exact hm) (by exact hs)]
  simp only [writeFieldTest, hc, hl, appendTest, hr']
  exact congrArg (fun t => Host.Outcome.next (finish t)) (tested_takes (by exact hfree.1.2.2) (by exact hthreaded) (by exact hreport))

/-- A Write Filemarks that passes the tests of R82 is taken. -/
theorem writeFilemarks_taken {sync : Bool} {n : Nat} (h : Served tag s) (hm : s.cah.mode = some .readWrite)
    (hs : s.wch.endOfMediumStop = false) (hn : n ≤ 256) (hr : appendRefused s = false) :
    exec (.writeFilemarks tag sync n) s = .next (finish (takeWrite (taken tag (.writeFilemarks sync n) s))) := by
  obtain ⟨hfree, hthreaded, hreport⟩ := h
  have hr' : appendRefused (taken tag (.writeFilemarks sync n) s) = false := hr
  rw [writeFilemarks_begins hfree, writeTest_fields (by exact hm) (by exact hs)]
  simp only [writeFieldTest, if_neg (Nat.not_lt.2 hn), appendTest, hr']
  exact congrArg (fun t => Host.Outcome.next (finish t)) (tested_takes (by exact hfree.1.2.2) (by exact hthreaded) (by exact hreport))

/-- With data on the write side its end is the append point, which R79's last test does not ask about. -/
theorem appendRefused_occupied (h : writeSideEmpty s = false) : appendRefused s = false := by
  simp [appendRefused, h]

theorem writeRecords_badCount {unbuffered : Bool} {ls : List Nat} (h : Served tag s) (hm : s.cah.mode = some .readWrite)
    (hs : s.wch.endOfMediumStop = false) (hc : badRecordCount ls = true) : exec (.writeRecords tag unbuffered ls) s =
      .next (finish (answered tag (.writeRecords unbuffered ls) (.sense (sense .badCount)) s)) := by
  obtain ⟨hfree, hthreaded, hreport⟩ := h
  rw [writeRecords_begins hfree, writeTest_fields (by exact hm) (by exact hs), ← endHead_recordsTaken _ hfree]
  simp only [writeFieldTest, hc, if_true]
  exact congrArg (fun t => Host.Outcome.next (finish t)) (tested_refuses (by exact hfree.1.2.2) (by exact hthreaded) (by exact hreport))

theorem writeFilemarks_badCount {sync : Bool} {n : Nat} (h : Served tag s) (hm : s.cah.mode = some .readWrite)
    (hs : s.wch.endOfMediumStop = false) (hn : 256 < n) : exec (.writeFilemarks tag sync n) s =
      .next (finish (answered tag (.writeFilemarks sync n) (.sense (sense .badCount)) s)) := by
  obtain ⟨hfree, hthreaded, hreport⟩ := h
  rw [writeFilemarks_begins hfree, writeTest_fields (by exact hm) (by exact hs), ← endHead_taken hfree]
  simp only [writeFieldTest, if_pos hn]
  exact congrArg (fun t => Host.Outcome.next (finish t)) (tested_refuses (by exact hfree.1.2.2) (by exact hthreaded) (by exact hreport))

/-- An overwrite's search looks for the data set of the object from the start of its wrap, where filemarks are counted (R19, R98). -/
theorem setOverwrite_search_frame {n : Nat} {e : DirEntry} (hv : s.fmc.directoryValid = true) (hd : slotHolding n s = none)
    (he : entryFor n s.fmc.directory = some e) :
    (setOverwrite n s).dlp.run.phase = .appendScan ∧ (setOverwrite n s).rch.duty = .scan ∧ (setOverwrite n s).dbf.readRing = []
      ∧ (setOverwrite n s).rch.scan.map (fun c => (c.goal, c.due)) = some (.append n 0, some (dueAtStart e))
      ∧ (setOverwrite n s).fmc = s.fmc ∧ (setOverwrite n s).out = s.out := by
  rw [setOverwrite_searches hd]
  simp [beginSearch, hv, goalObject, he, searchWrap, ScanGoal.fromStart, beginScan]

/-- Whether the data set before an overwrite ends with an unended part: known of it, or shown by a first entry that goes on (log 6). -/
def unendedAt (before : Bool) (es : List Entry) : Bool := before || match es with | e :: _ => !e.beginsObject | [] => false

theorem overwriteAt_eq (d first m n : Nat) (before : Bool) (es : List Entry) (ps : List PSym) (p : Place) :
    overwriteAt d first m n before es ps p s = appendSet (truncateMap d first m n (unendedAt before es) p { s with
      cpe.carryEntries := entriesBelow n first es
      cpe.carryPayload := ps.take (sumStored (entriesBelow n first es))
      cpe.carryFirst := first }) := rfl

/-- An overwrite from a slot that holds the data set receives as an append at the truncated map does, with what lies before the object
carried (R19). -/
theorem overwriteAt_records {u : Bool} {ls : List Nat} {d first m n : Nat} {before : Bool} {es : List Entry} {ps : List PSym} {p : Place}
    (h : NothingWaits s) (hq : s.dlp.queue = [⟨tag, .writeRecords u ls⟩]) :
    let t := overwriteAt d first m n before es ps p s
    let kept := entriesBelow n first es
    t.dlp.run.phase = .receiving ∧ t.dbf.direction = .write ∧ t.dbf.readRing = [] ∧ t.fmc.position = s.fmc.position
      ∧ t.cpe.carryEntries = kept ∧ t.cpe.carryPayload = ps.take (sumStored kept)
      ∧ t.fmc.nextDsn = d ∧ t.fmc.nextObject = n ∧ t.fmc.filemarks = m
      ∧ t.fmc.eod = ⟨p.wrap, p.lpos, if d = 0 then none else some (d - 1), first, unendedAt before es⟩
      ∧ (∀ e ∈ t.fmc.directory, e.wrap ≤ p.wrap) ∧ t.wch.nextPlace = p ∧ t.wch.eodCurrent = false
      ∧ t.fmc.accepted = s.fmc.accepted ∧ t.fmc.committed = s.fmc.committed ∧ t.out = s.out := by
  rw [overwriteAt_eq, appendSet_records (tag := tag) (u := u) (ls := ls) (by simpa [NothingWaits] using h) (by simpa using hq)]
  simp [setPhase]
  exact fun e he => truncateDirectory_wrap he

end

/-- Settles O34. A write command that passes the tests goes to `takeWrite`, whose rows of R19 have an equation each; what follows is read
off `appendReady` and the map that the row sets. -/
theorem writeCommandsSetTheAppendPoint : Obligations.WriteCommandsSetTheAppendPoint := by
  intro tag unbuffered sync ls n s hserved hmode hstop
  dsimp only
  refine ⟨fun hempty hcount hlength hroom => ?_, fun hempty hcount hroom => ?_, fun hocc => ⟨fun hcount hlength => ?_, fun hcount => ?_⟩,
    writeRecords_badCount hserved hmode hstop, writeFilemarks_badCount hserved hmode hstop⟩
  · have hexec := writeRecords_taken (unbuffered := unbuffered) hserved hmode hstop hcount hlength hroom
    have hnone : NothingWaits s := .of_writeSideEmpty hempty
    refine ⟨fun hend hpos hunended hvalid => ?_, fun hpos hbusy => ?_, fun hpos hbusy => ?_, fun hpos hvalid hbusy hrow => ?_⟩
    · rw [hexec, takeWrite_appends (by exact hempty) (by exact hpos) (by exact hvalid) (by simp [appendsAtEod, hend, hunended])
        (by exact hroom), appendSet_records (tag := tag) (u := unbuffered) (ls := ls) (by exact hnone) rfl]
      simp [setPhase, EodPos.place]
      exact ⟨rfl, fun h => by simp [h]⟩
    · rw [hexec, takeWrite_waits (by exact hempty) (by exact hpos) (by exact hbusy)]
    · rw [hexec, takeWrite_fromBot (by exact hempty) (by exact hpos) (by exact hbusy),
        appendSet_records (tag := tag) (u := unbuffered) (ls := ls) (by simpa [NothingWaits] using hnone) (by simp)]
      simp [setPhase, hpos, EodPos.empty, EodPos.place]
    · have hover : exec (.writeRecords tag unbuffered ls) s =
          .next (finish (setOverwrite s.fmc.position (recordsTaken tag unbuffered ls s))) := by
        rw [hexec]
        exact congrArg (fun t => Host.Outcome.next (finish t)) (takeWrite_overwrites (by exact hempty) (by exact hpos) (by exact hvalid)
          (by exact hbusy) (by simpa [appendsAtEod] using fun h => hrow.resolve_left (not_not.2 h)))
      refine ⟨fun d m p hd hk hm hp => ?_, fun e hd he => ?_⟩
      · rw [hover, setOverwrite_known (by exact hd) (by exact hk) (by exact hm) hp]
        obtain ⟨hphase, hdirection, hring, hposition, hcarry, hpayload, hdsn, hobject, hmarks, heod, hdirectory, hplace, hcurrent, haccepted,
          hcommitted, hout⟩ := overwriteAt_records (s := recordsTaken tag unbuffered ls s) (tag := tag) (d := d.dsn)
            (first := d.firstObject.getD 0) (m := m) (n := s.fmc.position) (before := unendedBefore d.dsn s) (es := d.entries)
            (ps := d.payload) (p := p) (by exact hnone) rfl
        exact ⟨rfl, hphase, hdirection, hring, hposition, hcarry, hpayload, fun hfirst => hfirst ▸ entriesBelow_self _ _, hdsn, hobject,
          hmarks, heod, hdirectory, hplace, hcurrent, haccepted, hcommitted, hout⟩
      · rw [hover]
        obtain ⟨hphase, hduty, hring, hscan, hfmc, hout⟩ :=
          setOverwrite_search_frame (s := recordsTaken tag unbuffered ls s) (n := s.fmc.position) hvalid hd he
        exact ⟨rfl, hphase, hduty, hring, hscan, congrArg Fmc.directory hfmc, congrArg Fmc.eod hfmc, congrArg Fmc.position hfmc, hout⟩
  · have hexec := writeFilemarks_taken (sync := sync) hserved hmode hstop hcount hroom
    have hnone : NothingWaits s := .of_writeSideEmpty hempty
    refine ⟨fun hend hpos hunended hvalid => ?_, fun hpos hbusy => ?_⟩
    · rw [hexec, takeWrite_appends (by exact hempty) (by exact hpos) (by exact hvalid) (by simp [appendsAtEod, hend, hunended])
        (by exact hroom), appendSet_filemarks (tag := tag) (sync := sync) (n := n) (by exact hnone) rfl]
      simp [setPhase, EodPos.place]
      exact fun h => by simp [h]
    · rw [hexec, takeWrite_fromBot (by exact hempty) (by exact hpos) (by exact hbusy),
        appendSet_filemarks (tag := tag) (sync := sync) (n := n) (by simpa [NothingWaits] using hnone) (by simp)]
      simp [setPhase]
  · rw [writeRecords_taken hserved hmode hstop hcount hlength (appendRefused_occupied hocc), takeWrite_continues (by exact hocc)]
    rfl
  · rw [writeFilemarks_taken hserved hmode hstop hcount (appendRefused_occupied hocc), takeWrite_continues (by exact hocc)]
    rfl

end Sys2Proof.Machine
end

section
/-! SUPPORT. Statements that do not hold of every state they quantify over, each with a state that shows it. -/

namespace Sys2Proof.Machine

/-- READY with the link UP, and nothing else of the drive as yet. -/
def linkUp : State := { State.reset with frg.condition := .ready, dlp.link := .up }

/-- A threaded READ/WRITE tape at rest at BOT. -/
def threadedAtBot : State := { linkUp with
  cah.state := .threaded
  cah.mode := some .readWrite
  moc.motion := .stopped
  moc.wrap := some 0
  moc.lpos := some 1000000
  moc.restsFor := some botPlace }

/-- A Write Records receives while a filemark still waits for the engine, which has a data set open for it. -/
def receivesBehindFilemark : State := { linkUp with
  dlp.tags := [2]
  dlp.queue := [⟨2, .writeRecords false [5]⟩]
  dlp.run := { phase := .receiving, lengths := [5] }
  dbf.writeRing := [{ state := .filling, dsn := 0 }]
  cpe.intake := [.filemark 3] }

/-- The Abort of a receiving Write Records has the engine settle (R35), which places the filemark that waits, and the Position rises past
it (R82). -/
theorem abort_receivesBehindFilemark : (abortHead (replied 1 goodReply receivesBehindFilemark)).fmc.position = 1 := by decide

/-- Refutes O26: the Abort of a receiving Write Records does not keep the Position in `receivesBehindFilemark`, where it was 0. The engine
has taken up a filemark by the end of each step, but the statement speaks of every state. -/
theorem not_abortNamesATag : ¬ Obligations.AbortNamesATag := by
  intro h
  obtain ⟨-, -, -, -, hHead, -⟩ := h 1 2 receivesBehindFilemark (by decide) (by decide)
  obtain ⟨-, hReceiving, -⟩ := hHead ⟨2, .writeRecords false [5]⟩ [] (by decide) rfl rfl rfl rfl rfl rfl
  obtain ⟨-, -, hPosition, -⟩ := hReceiving false [5] rfl rfl
  rw [abort_receivesBehindFilemark] at hPosition
  exact absurd hPosition (by decide)

/-- The tape stands at BOT while a search of read-ahead for the Position's data set is still held. -/
def searchesAtBot : State := { threadedAtBot with
  rch.duty := .scan
  rch.scan := some { goal := .position } }

/-- A calm drive with an empty Medium Queue has nothing to take up. -/
theorem progress_calm {s : State} (h : Calm s) (hq : s.dlp.queue = []) : progress s = s := by
  simp [progress, settleRound, resumeHead, settleBlocks_calm h, hq]

/-- The Event notice leaves the Read Channel. -/
theorem sendNotices_rch (s : State) : (sendNotices s).rch = s.rch := by
  unfold sendNotices
  split <;> rfl

/-- Where nothing is to be taken up, the Read Channel stays as a step's own work leaves it. -/
theorem finish_calm_rch {s : State} (h : Calm s) (hq : s.dlp.queue = []) : (finish s).rch = s.rch := by
  rw [finish, progress_calm h hq, sendNotices_rch]

/-- What a Rewind does at `searchesAtBot`, the end of the step apart. -/
def rewoundAtBot : State := beginCommand 1 (.rewind false) (taken 1 (.rewind false) searchesAtBot)

/-- What O39 has it do there. -/
def answeredAtBot : State := answered 1 (.rewind false) .good { searchesAtBot with
  fmc.position := 0
  dbf.readAheadActive := false
  rch.expected := some 0
  rch.nextDsn := some 0
  rch.resume := some botPlace }

theorem rewoundAtBot_calm : Calm rewoundAtBot := by constructor <;> decide

theorem answeredAtBot_calm : Calm answeredAtBot := by constructor <;> decide

/-- A Rewind at BOT ends the search that read-ahead makes (R104), and the statement's state keeps it. -/
theorem rewoundAtBot_scan : rewoundAtBot.rch.scan = none ∧ answeredAtBot.rch.scan = some { goal := .position } := by decide

/-- Refutes O39: a Rewind at BOT also ends a search of read-ahead, so that the state with the Position and the next data set changed
alone, which keeps that search, is not the one it leaves from `searchesAtBot`. -/
theorem not_rewindAndRebuildBegin : ¬ Obligations.RewindAndRebuildBegin := by
  intro h
  obtain ⟨hAtBot, -⟩ := h.1 1 searchesAtBot (by decide) rfl (by decide) (by decide) (by decide) rfl rfl
  have hSame : finish rewoundAtBot = finish answeredAtBot :=
    next_inj ((mediumIn_free (by decide)).symm.trans (hAtBot (by decide)))
  have hRch := congrArg State.rch hSame
  rw [finish_calm_rch rewoundAtBot_calm (by decide), finish_calm_rch answeredAtBot_calm (by decide)] at hRch
  obtain ⟨hLeft, hKept⟩ := rewoundAtBot_scan
  rw [hRch, hKept] at hLeft
  cases hLeft

/-- A Write Records receives its record behind an open data set with no entry, while a data set that has been retried fails again. -/
def failsAgain : State := { linkUp with
  cah.state := .threaded
  rch.trail := [(⟨0, 1000000⟩, 0)]
  wch.window := [⟨0, .data, some 0, some 0, 4, ⟨0, 1000000⟩⟩]
  dbf.writeRing := [{ state := .writing, dsn := 0, firstObject := some 0, retried := true }, { state := .filling, dsn := 1 }]
  dlp.tags := [2]
  dlp.queue := [⟨2, .writeRecords false [5]⟩]
  dlp.run := { phase := .receiving, lengths := [5], got := 2 }
  cpe.intake := [.record 2 5 2 0 none false false] }

/-- With the partial record of the command that the failure ends, the open data set that is left with no entry is dropped (R35). -/
theorem verify_failsAgain : (verifyFrame .blank failsAgain).dbf.writeRing.length = 1 := by decide

/-- Refutes O57: the permanent write failure does not keep the write ring of `failsAgain`, whose open data set has no entry. -/
theorem not_aRecordGoesToTape : ¬ Obligations.ARecordGoesToTape := by
  intro h
  obtain ⟨-, -, -, -, -, -, -, hVerify⟩ := h
  obtain ⟨-, -, -, hFails⟩ := hVerify .blank ⟨0, 1000000⟩ 0 [] failsAgain rfl
  obtain ⟨-, -, hAgain⟩ := hFails ⟨0, .data, some 0, some 0, 4, ⟨0, 1000000⟩⟩ 0
    { state := .writing, dsn := 0, firstObject := some 0, retried := true } (by decide) rfl rfl rfl rfl (.inl (by decide)) rfl
  obtain ⟨-, -, -, -, -, -, hRing, -⟩ := hAgain rfl
  have hLength := verify_failsAgain
  rw [hRing] at hLength
  exact absurd hLength (by decide)

/-- A Rebuild pass finds the data set that it collected for its header unreadable, while the link is not UP. -/
def headerLostLinkDown : State := { State.reset with
  dlp.queue := [⟨2, .rebuildDirectory⟩]
  dlp.run := { phase := .rebuilding }
  rch.rebuild := some { wasValid := false }
  rch.collectFor := .rebuildHeader
  dbf.readRing := [{ state := .ready, dsn := 0, unrecoverable := some .unreadable }] }

/-- The drive sends nothing while the link is not UP (R167). -/
theorem rebuild_headerLostLinkDown : (rebuildHelpEnded headerLostLinkDown).out = [] := by decide

/-- Refutes O60: the failed pass sends no Read Failure in `headerLostLinkDown`, since the link is not UP. -/
theorem not_scansMeetHeaders : ¬ Obligations.ScansMeetHeaders := by
  intro h
  obtain ⟨-, -, -, -, -, -, -, hLost⟩ := h
  obtain ⟨-, -, -, hReply⟩ := hLost { wasValid := false } { state := .ready, dsn := 0, unrecoverable := some .unreadable }
    headerLostLinkDown rfl rfl rfl rfl rfl rfl rfl
  obtain ⟨x, r, -, hSent⟩ := hReply ⟨2, .rebuildDirectory⟩ rfl
  rw [rebuild_headerLostLinkDown] at hSent
  exact List.not_mem_nil hSent

end Sys2Proof.Machine
end

section
/-! SUPPORT. A calm drive at the end of a step: the command at the head has nothing to take up either (R171, R176). -/

namespace Sys2Proof.Machine

/-- A calm head waits for an event of its own, or for the writer's EOD frame, or has nothing to wait for. -/
theorem resumeHead_calm {s : State} (h : Calm s) : resumeHead s = s := by
  have hw := h.head
  unfold waitsForEvent at hw
  unfold resumeHead
  split
  · rfl
  · rename_i q rest hq
    cases hp : s.dlp.run.phase <;> simp only [hp, Bool.false_eq_true] at hw ⊢
    case waitTape => simp [tapeFree, hw]
    case rebuilding =>
      obtain ⟨r, hr⟩ := Option.isSome_iff_exists.1 hw
      simp [hr]
    case receiving =>
      have hl : s.dlp.run.lengths ≠ [] := by simpa using hw
      split
      · simp [receivedAll, hl]
      · rfl

/-- A round finds nothing to take up in a calm drive. -/
theorem settleRound_calm {s : State} (h : Calm s) : settleRound s = s := by
  rw [settleRound, settleBlocks_calm h, resumeHead_calm h]

/-- Settles O16: neither the blocks nor the command at the head take anything up in any round, and the notice is left. -/
theorem calmStateOnlySendsNotices : Obligations.CalmStateOnlySendsNotices := by
  intro s h
  rw [finish, progress, settleRound_calm h, settleRound_calm h, settleRound_calm h, settleBlocks_calm h]

end Sys2Proof.Machine
end

section
/-! SUPPORT. The token fill and what its tokens decode to (R24 to R26, R29, R38). -/

namespace Sys2Proof.Machine

/-! ## Tokens and what they rebuild (R24 to R26) -/

/-- The tokens, decoded onto the window, add the bytes, whatever symbols follow them (R24, R38). -/
def Rebuilds (ts : List Token) (window bytes : List Byte) : Prop :=
  ∀ (rest : List PSym) (need : Nat),
    decodeSyms (tokenSyms ts ++ rest) window (bytes.length + need) 0 none = decodeSyms rest (window ++ bytes) need 0 none

theorem tokenSyms_append (ts us : List Token) : tokenSyms (ts ++ us) = tokenSyms ts ++ tokenSyms us := by
  simp [tokenSyms]

theorem Rebuilds.nil (window : List Byte) : Rebuilds [] window [] := by
  intro rest need
  simp [tokenSyms]

theorem Rebuilds.append {ts us : List Token} {window a b : List Byte} (ht : Rebuilds ts window a) (hu : Rebuilds us (window ++ a) b) :
    Rebuilds (ts ++ us) window (a ++ b) := by
  intro rest need
  rw [tokenSyms_append, List.append_assoc, List.length_append, Nat.add_assoc, ht, hu, List.append_assoc]

/-- Tokens alone, with nothing else needed, decode to the window and their bytes. -/
theorem Rebuilds.decodes {ts : List Token} {window bytes : List Byte} (h : Rebuilds ts window bytes) :
    decodeSyms (tokenSyms ts) window bytes.length 0 none = some (window ++ bytes) := by
  have := h [] 0
  simpa [decodeSyms] using this

/-- The raw bytes of an open Literal Run join the window. -/
theorem decodeSyms_raws (bs : List Byte) (rest : List PSym) (window : List Byte) (need : Nat) :
    decodeSyms (bs.map .raw ++ rest) window (bs.length + need) bs.length none = decodeSyms rest (window ++ bs) need 0 none := by
  induction bs generalizing window with
  | nil => simp
  | cons b bs ih =>
    have hneed : bs.length + 1 + need - 1 = bs.length + need := by omega
    simp only [List.map_cons, List.cons_append, List.length_cons, decodeSyms, hneed]
    rw [ih, List.append_assoc, List.singleton_append]

/-- A Literal Run of 1 to 64 bytes rebuilds them (R24). -/
theorem Rebuilds.run {bs : List Byte} (window : List Byte) (h1 : 1 ≤ bs.length) (h64 : bs.length ≤ 64) :
    Rebuilds [.run bs] window bs := by
  intro rest need
  have hsyms : tokenSyms [.run bs] ++ rest = .litHead bs.length :: (bs.map .raw ++ rest) := by simp [tokenSyms, Token.syms]
  rw [hsyms, decodeSyms, if_pos ⟨h1, h64, by omega⟩, decodeSyms_raws]

/-- A Match rebuilds the bytes that its copy adds (R24). -/
theorem Rebuilds.copy {off : Nat} {window bs : List Byte} (hcopy : copyBack off bs.length window = window ++ bs) (h3 : 3 ≤ bs.length)
    (h130 : bs.length ≤ 130) (h1 : 1 ≤ off) (ho : off ≤ offsetLimit window) : Rebuilds [.copy bs.length off] window bs := by
  intro rest need
  have hlimit : off ≤ 16384 ∧ off ≤ window.length := by simpa [offsetLimit] using ho
  have hneed : bs.length + need - bs.length = need := by omega
  have hsyms : tokenSyms [.copy bs.length off] ++ rest = .matchByte bs.length off 0 :: .matchByte bs.length off 1
      :: .matchByte bs.length off 2 :: rest := by simp [tokenSyms, Token.syms]
  rw [hsyms, decodeSyms, if_pos ⟨h3, h130, h1, hlimit.1, hlimit.2, by omega⟩]
  simp [decodeSyms, hcopy, hneed]

/-- A Literal Run that is closed joins the tokens. -/
theorem Rebuilds.closeRun {ts : List Token} {window a run : List Byte} (h : Rebuilds ts window a) (h64 : run.length ≤ 64) :
    Rebuilds (closeRun ts run) window (a ++ run) := by
  unfold Machine.closeRun
  cases run with
  | nil => simpa using h
  | cons b bs => exact h.append (.run _ (by simp) h64)

theorem closeRun_cost (ts : List Token) (run : List Byte) :
    (tokenSyms (closeRun ts run)).length = (tokenSyms ts).length + (if run = [] then 0 else 1 + run.length) := by
  unfold closeRun
  cases run with
  | nil => simp
  | cons b bs => simp [tokenSyms, Token.syms]; omega

/-! ## Matches (R24, R26) -/

theorem agreeing_le (cap : Nat) (as bs : List Byte) : agreeing cap as bs ≤ cap ∧ agreeing cap as bs ≤ bs.length := by
  induction cap generalizing as bs with
  | zero => simp [agreeing]
  | succ cap ih =>
    match as, bs with
    | [], _ => simp [agreeing]
    | _ :: _, [] => simp [agreeing]
    | a :: as, b :: bs =>
      unfold agreeing
      split
      · simpa using ih as bs
      · simp

/-- Where the input agrees with the window's end from `off` places back and with itself after that, the copy rebuilds it (R24). -/
theorem copyBack_agreeing {off n cap : Nat} {window input : List Byte} (h1 : 1 ≤ off) (ho : off ≤ window.length)
    (hn : n ≤ agreeing cap (window.drop (window.length - off) ++ input) input) :
    copyBack off n window = window ++ input.take n := by
  induction n generalizing cap window input with
  | zero => simp [copyBack]
  | succ n ih =>
    have hback : window.length - off < window.length := by omega
    rw [List.drop_eq_getElem_cons hback] at hn
    match cap, input with
    | 0, _ => simp [agreeing] at hn
    | cap + 1, [] => exact absurd (hn.trans (agreeing_le _ _ _).2) (Nat.not_succ_le_zero n)
    | cap + 1, b :: rest =>
      simp only [List.cons_append, agreeing] at hn
      split at hn
      · rename_i hb
        have hdrop : (window ++ [b]).drop ((window ++ [b]).length - off) ++ rest
            = window.drop (window.length - off + 1) ++ b :: rest := by
          rw [List.length_append, List.length_singleton, Nat.sub_add_comm ho, List.drop_append_of_le_length (by omega)]
          simp
        have hcopy := ih (cap := cap) (window := window ++ [b]) (input := rest) (by simp; omega) (by rw [hdrop]; omega)
        have hget : window.getD (window.length - off) 0 = b := by rw [List.getD_eq_getElem _ _ hback, hb]
        rw [copyBack, hget, hcopy]
        simp
      · omega

/-- The best Match of a positive length is the Match at its offset, which lies in the range tried (R26). -/
theorem bestMatch_spec {cap : Nat} {window input : List Byte} {n : Nat} (h : 0 < (bestMatch cap window input n).1) :
    (bestMatch cap window input n).1 = matchLength cap (bestMatch cap window input n).2 window input
      ∧ 1 ≤ (bestMatch cap window input n).2 ∧ (bestMatch cap window input n).2 ≤ n := by
  induction n with
  | zero => simp [bestMatch] at h
  | succ n ih =>
    unfold bestMatch at h ⊢
    dsimp only at h ⊢
    split
    · exact ⟨rfl, Nat.le_add_left 1 n, Nat.le_refl _⟩
    · rename_i hless
      rw [if_neg hless] at h
      obtain ⟨hlen, hlow, hhigh⟩ := ih h
      exact ⟨hlen, hlow, Nat.le_succ_of_le hhigh⟩

/-- The Match that a fill takes rebuilds the input's next bytes (R24 to R26). -/
theorem bestMatch_rebuilds {window input : List Byte}
    (h : 3 ≤ (bestMatch (min 130 input.length) window input (offsetLimit window)).1) :
    let m := bestMatch (min 130 input.length) window input (offsetLimit window)
    m.1 ≤ input.length ∧ Rebuilds [.copy m.1 m.2] window (input.take m.1) := by
  intro m
  obtain ⟨hlen, hlow, hhigh⟩ := bestMatch_spec (Nat.lt_of_lt_of_le (by decide) h)
  have hagree : m.1 = agreeing (min 130 input.length) (window.drop (window.length - m.2) ++ input) input := hlen
  obtain ⟨hcap, hinput⟩ := agreeing_le (min 130 input.length) (window.drop (window.length - m.2) ++ input) input
  rw [← hagree] at hcap hinput
  have htaken : (input.take m.1).length = m.1 := List.length_take_of_le hinput
  have hcopy : copyBack m.2 m.1 window = window ++ input.take m.1 :=
    copyBack_agreeing hlow (hhigh.trans (Nat.min_le_right _ _)) hagree.le
  refine ⟨hinput, ?_⟩
  have := Rebuilds.copy (off := m.2) (window := window) (bs := input.take m.1) (by rwa [htaken]) (by rwa [htaken]) (by omega) hlow hhigh
  rwa [htaken] at this

/-! ## The token fill (R29) -/

/-- What a token fill of an input owes: its tokens rebuild what it covers, cost what it counts, and cover the whole input unless the room
ran out. -/
structure FillSound (room : Nat) (window input : List Byte) (f : Fill) : Prop where
  within : f.covered ≤ input.length
  rebuilds : Rebuilds f.tokens window (input.take f.covered)
  cost : (tokenSyms f.tokens).length = f.cost
  fits : f.cost ≤ room
  whole : f.overflow = false → f.covered = input.length

section
variable {room cost : Nat} {window done run rest : List Byte} {tokens : List Token}

/-- A fill that stops closes its Literal Run; it covers what it has passed. -/
theorem fillSound_stops {overflow : Bool} (ht : Rebuilds tokens window done) (h64 : run.length ≤ 64)
    (hc : (tokenSyms (closeRun tokens run)).length = cost) (hr : cost ≤ room) (hrest : overflow = false → rest = []) :
    FillSound room window (done ++ run ++ rest) ⟨closeRun tokens run, (done ++ run).length, cost, overflow⟩ where
  within := by simp
  rebuilds := by
    rw [List.take_left']
    · exact ht.closeRun h64
    · rfl
  cost := hc
  fits := hr
  whole := fun h => by simp [hrest h]

/-- A fill keeps, from choice to choice, that its tokens rebuild what they cover and that the open run has at most 64 bytes (R29). -/
theorem fillFrom_sound (fuel : Nat) (hfuel : rest.length ≤ fuel) (ht : Rebuilds tokens window done) (h64 : run.length ≤ 64)
    (hc : (tokenSyms (closeRun tokens run)).length = cost) (hr : cost ≤ room) :
    FillSound room window (done ++ run ++ rest)
      (fillFrom room fuel (window ++ (done ++ run)) rest tokens run (done ++ run).length cost) := by
  induction fuel generalizing cost done run rest tokens with
  | zero => exact fillSound_stops ht h64 hc hr (fun _ => List.eq_nil_of_length_eq_zero (Nat.le_zero.1 hfuel))
  | succ fuel ih =>
    cases rest with
    | nil => exact fillSound_stops ht h64 hc hr (fun _ => rfl)
    | cons b rest =>
      have hfull : FillSound room window (done ++ run ++ b :: rest) ⟨closeRun tokens run, (done ++ run).length, cost, true⟩ :=
        fillSound_stops ht h64 hc hr (fun h => Bool.noConfusion h)
      have hclosed := ht.closeRun h64
      have hrest : rest.length ≤ fuel := Nat.le_of_succ_le_succ hfuel
      unfold fillFrom
      dsimp only
      split
      next hmatch =>
        split
        next hroom =>
          obtain ⟨hlen, hcopy⟩ := bestMatch_rebuilds hmatch
          generalize bestMatch (min 130 (b :: rest).length) (window ++ (done ++ run)) (b :: rest)
            (offsetLimit (window ++ (done ++ run))) = m at hmatch hlen hcopy ⊢
          have hnext := ih (cost := cost + 3) (done := done ++ run ++ (b :: rest).take m.1) (run := []) (rest := (b :: rest).drop m.1)
            (tokens := closeRun tokens run ++ [.copy m.1 m.2]) (by rw [List.length_drop, List.length_cons]; omega)
            (hclosed.append hcopy) (Nat.zero_le _) 
            (by rw [closeRun_cost, tokenSyms_append, List.length_append, hc]; rfl) hroom
          simpa [List.length_take_of_le hlen, Nat.add_assoc] using hnext
        next => exact hfull
      next =>
        split
        next =>
          split
          next hroom =>
            have hnext := ih (cost := cost + 2) (done := done ++ run) (run := [b]) (rest := rest) (tokens := closeRun tokens run)
              hrest hclosed (by decide : 1 ≤ 64) (by simp [closeRun_cost (closeRun tokens run), hc]) hroom
            simpa [Nat.add_assoc] using hnext
          next => exact hfull
        next hopen =>
          split
          next hroom =>
            obtain ⟨hne, hne64⟩ := not_or.1 hopen
            have hnonempty : run ≠ [] := by simpa using hne
            have hnext := ih (cost := cost + 1) (done := done) (run := run ++ [b]) (rest := rest) (tokens := tokens)
              hrest ht (by rw [List.length_append, List.length_singleton]; omega)
              (by rw [closeRun_cost] at hc ⊢; simp [hnonempty] at hc ⊢; omega) hroom
            simpa [Nat.add_assoc] using hnext
          next => exact hfull

end

/-- The token fill of an input is sound (R29). -/
theorem tokenFill_sound (room : Nat) (window input : List Byte) : FillSound room window input (tokenFill room window input) := by
  have h := fillFrom_sound (room := room) (cost := 0) (window := window) (done := []) (run := []) (rest := input) (tokens := [])
    input.length (Nat.le_refl _) (.nil window) (Nat.zero_le _) rfl (Nat.zero_le _)
  simpa [tokenFill] using h

/-- Settles O55: the tokens rebuild the bytes covered, and nothing is needed after them. -/
theorem tokenFillDecodes : Obligations.TokenFillDecodes := by
  intro room window input
  obtain ⟨hwithin, hrebuilds, hcost, hfits, hwhole⟩ := tokenFill_sound room window input
  have hdecodes := hrebuilds.decodes
  rw [List.length_take_of_le hwithin] at hdecodes
  exact ⟨hdecodes, hwithin, hcost, hfits, hwhole⟩

end Sys2Proof.Machine
end

section
/-! SUPPORT. The forms of a record part and what they decode to (R29, R30, R36, R38). -/

namespace Sys2Proof.Machine

theorem rawBytes_map_raw (bs : List Byte) : rawBytes (bs.map .raw) = some bs := by
  induction bs with
  | nil => rfl
  | cons b bs ih => simp [rawBytes, ih]

/-- A part that is formed: its bytes are the first of those at hand, its stored form fits the room, and it decodes by its kind; a
COMPRESSED part comes of the switch and of no fault. -/
structure PartSound (compress : Bool) (room : Nat) (window avail bytes : List Byte) (kind : PartKind) (syms : List PSym)
    (fault : Bool) : Prop where
  first : bytes = avail.take bytes.length
  fits : syms.length ≤ room
  stored : kind = .stored → syms = bytes.map .raw
  compressed : kind = .compressed → compress = true ∧ fault = false
    ∧ decodeSyms syms window bytes.length 0 none = some (window ++ bytes)

theorem storedForm_sound {compress fault fault' : Bool} {room left : Nat} {window avail bytes : List Byte} {kind : PartKind}
    {syms : List PSym} (h : storedForm room left avail fault = .part kind bytes syms fault') :
    PartSound compress room window avail bytes kind syms fault' ∧ kind = .stored ∧ fault' = fault := by
  unfold storedForm at h
  dsimp only at h
  split at h
  · rename_i hn
    injection h with hkind hbytes hsyms hfault
    subst hkind hbytes hsyms hfault
    have hlen : (avail.take (min room left)).length = min room left := List.length_take_of_le hn
    exact ⟨⟨by rw [hlen], by rw [List.length_map, hlen]; exact Nat.min_le_left _ _, fun _ => rfl, (nomatch ·)⟩, rfl, rfl⟩
  · cases h

/-- Whatever is formed is sound, and with compression off it is STORED with no fault (R29, R30, R36). -/
theorem formPart_sound {compress agrees fault : Bool} {room left : Nat} {window avail bytes : List Byte} {kind : PartKind}
    {syms : List PSym} (h : formPart compress agrees room left window avail = .part kind bytes syms fault) :
    PartSound compress room window avail bytes kind syms fault ∧ (compress = false → kind = .stored ∧ fault = false) := by
  unfold formPart at h
  dsimp only at h
  split at h
  · obtain ⟨hsound, hstored⟩ := storedForm_sound h
    exact ⟨hsound, fun _ => hstored⟩
  · rename_i hon
    have hcompress : compress = true := by simpa using hon
    refine (and_iff_left (fun hoff => absurd hoff hon)).2 ?_
    split at h
    · split at h
      · split at h
        · rename_i hshadow
          obtain ⟨hwithin, -, hcost, hfits, -⟩ := tokenFill_sound room window avail
          injection h with hkind hbytes hsyms hfault
          subst hkind hbytes hsyms hfault
          have hlen : (avail.take (tokenFill room window avail).covered).length = (tokenFill room window avail).covered :=
            List.length_take_of_le hwithin
          exact ⟨by rw [hlen], hcost.trans_le hfits, (nomatch ·), fun _ => ⟨hcompress, rfl, by rw [hlen]; exact hshadow.2⟩⟩
        · exact (storedForm_sound h).1
      · exact (storedForm_sound h).1
    · cases h

/-- A sound part decodes, by its kind and lengths, to its bytes (R38). -/
theorem PartSound.decodes {compress fault : Bool} {room : Nat} {window avail bytes : List Byte} {kind : PartKind} {syms : List PSym}
    (h : PartSound compress room window avail bytes kind syms fault) (begins ends : Bool) :
    decodePart ⟨bytes.length, syms.length, kind, begins, ends⟩ syms window = some (window ++ bytes) := by
  cases kind with
  | stored => simp [decodePart, h.stored rfl, rawBytes_map_raw]
  | compressed => simp [decodePart, (h.compressed rfl).2.2]

/-- Settles O56: a sound part decodes, and a fault is no part of a COMPRESSED one. -/
theorem formedPartDecodes : Obligations.FormedPartDecodes := by
  intro compress agrees room left window avail bytes kind syms fault begins ends h
  obtain ⟨hsound, hoff⟩ := formPart_sound h
  refine ⟨hsound.decodes begins ends, hsound.first, hsound.fits, hoff, fun hfault => ?_⟩
  cases kind with
  | stored => rfl
  | compressed => rw [(hsound.compressed rfl).2.1] at hfault; cases hfault

end Sys2Proof.Machine
end

section
/-! SUPPORT. Read Records and its DATA-IN frames (R25, R49, R56, R99, R100, R169). -/

namespace Sys2Proof.Machine

/-- A step whose own effect is known goes on with what follows it. -/
theorem finishes {s t : State} (h : s = t) : (.next (finish s) : Answer) = .next (finish t) := congrArg _ (congrArg finish h)

section
variable {s : State} {tag : Tag} {l n : Nat}

/-! ## Read Records is taken (R49, R56, R99) -/

theorem readRecords_begins (h : HeadFree tag s) :
    exec (.readRecords tag l n) s = .next (finish (tested (readTest (.readRecords l n) (taken tag (.readRecords l n) s))
      (takeRead (readOwn (.readRecords l n))) (taken tag (.readRecords l n) s))) := by
  obtain ⟨⟨-, -, hready⟩, -, -, hlib⟩ := id h
  refine (mediumIn_free h).trans ?_
  simp [beginCommand, waitsForLibrary_none (s := taken tag (.readRecords l n) s) hlib, hready]

/-- With no suspended slot and no End of Medium the tests of R99 are those of the command's fields. -/
theorem readTest_fields {c : MedCmd} (hm : s.wch.endOfMediumStop = false) (hs : suspendedSlots s = false) :
    readTest c s = (readFieldTest c).map (fun r => .sense (sense r)) := by
  simp [readTest, hm, hs]

/-- The direction stands where it is not WRITE and READ has a slot (R47). -/
theorem settleDirection_stands (hw : s.dbf.direction ≠ .write) (hr : s.dbf.direction = .read → s.dbf.readRing ≠ []) :
    settleDirection s = s := by
  unfold settleDirection
  split
  case h_1 hd => exact absurd hd hw
  case h_2 hd => simp [hr hd]
  case h_3 => rfl

/-- A Read Records whose fields fit begins to read (R56, R99). -/
theorem readRecords_reads (h : Served tag s) (hm : s.wch.endOfMediumStop = false) (hs : suspendedSlots s = false)
    (hempty : writeSideEmpty s = true) (hf : readFieldTest (.readRecords l n) = none) (hw : s.dbf.direction ≠ .write)
    (hr : s.dbf.direction = .read → s.dbf.readRing ≠ []) :
    exec (.readRecords tag l n) s = .next (finish (readWork (taken tag (.readRecords l n) s))) := by
  obtain ⟨hfree, hthreaded, hreport⟩ := h
  obtain ⟨⟨-, -, hready⟩, -⟩ := id hfree
  rw [readRecords_begins hfree, readTest_fields (by exact hm) (by exact hs), hf, Option.map_none,
    tested_takes (by exact hready) (by exact hthreaded) (by exact hreport), takeRead,
    if_neg (by exact ne_false_of_eq_true hempty),
    settleDirection_stands (by exact hw) (by exact hr)]
  rfl

/-- A Read Records whose fields do not fit is answered with the reason (R99). -/
theorem readRecords_refused {r : Reason} (h : Served tag s) (hm : s.wch.endOfMediumStop = false) (hs : suspendedSlots s = false)
    (hf : readFieldTest (.readRecords l n) = some r) :
    exec (.readRecords tag l n) s = .next (finish (answered tag (.readRecords l n) (.sense (sense r)) s)) := by
  obtain ⟨hfree, hthreaded, hreport⟩ := h
  obtain ⟨⟨-, -, hready⟩, -⟩ := id hfree
  rw [readRecords_begins hfree, readTest_fields (by exact hm) (by exact hs), hf, Option.map_some,
    tested_refuses (by exact hready) (by exact hthreaded) (by exact hreport), endHead_taken hfree]

/-! ## A DATA-IN frame (R100, R169) -/

/-- With a credit, a whole part under the drain pointer goes out in DATA-IN frames for the Read Records at the head. -/
theorem dataInStep_sends {qs : List QEntry} {d : Slot} {p : Part} {bs : List Byte} {last : Bool}
    (hq : s.dlp.queue = ⟨tag, .readRecords l n⟩ :: qs) (hphase : s.dlp.run.phase = .reading) (hlink : s.dlp.link = .up)
    (hcredit : 0 < s.dlp.receiveCredits) (habort : s.dlp.run.aborting = false) (hpointer : pointer s = .part d p bs last)
    (hends : p.ends = true) (hsent : s.dlp.run.sent < l) :
    dataInStep s = syncWindow (sendDataIn tag l d p bs last s) := by
  simp [dataInStep, headEntry, hq, hpointer, readExecuting, hphase, habort, hcredit, hlink, hends, hsent, goesAcross]

/-- With no credit nothing is sent (R169). -/
theorem dataInStep_no_credit (h : s.dlp.receiveCredits = 0) : dataInStep s = s := by
  unfold dataInStep
  split
  · exact if_neg fun ⟨_, _, hcredit, _⟩ => absurd hcredit (by simp [h])
  · rfl

section
variable {d : Slot} {p : Part} {bs : List Byte}

/-- A record that one frame holds goes out whole, marked as its end; the Position rises past it, and the figures of the record return to
what they were before it. -/
theorem sendDataIn_whole (hends : p.ends = true) (hsent : s.dlp.run.sent = 0) (hchunk : s.dlp.run.chunk = [])
    (hpart : s.dlp.run.partDone = 0) (hdecoded : s.dlp.run.decoded = 0) (hbs : bs.length = p.ulen) (hl : l = p.ulen)
    (hagreed : l ≤ s.dlp.agreed) :
    sendDataIn tag l d p bs false s = { s with
      out := s.out ++ [.dataIn tag true bs]
      dlp.receiveCredits := s.dlp.receiveCredits - 1
      dlp.linkBytes := s.dlp.linkBytes + p.ulen
      dlp.run.delivered := s.dlp.run.delivered + 1
      fmc.position := s.fmc.position + 1 } := by
  subst hl
  have htake : bs.take p.ulen = bs := by rw [← hbs, List.take_length]
  simp [sendDataIn, partDone, recordEnds, nextRecord, emit, hends, hsent, hchunk, hpart, hdecoded, hbs, Nat.min_eq_right hagreed, htake]

/-- A record longer than the agreed size goes on after its first frame. -/
theorem sendDataIn_first (hsent : s.dlp.run.sent = 0) (hchunk : s.dlp.run.chunk = [])
    (hpart : s.dlp.run.partDone = 0) (hdecoded : s.dlp.run.decoded = 0) (hbs : bs.length = p.ulen) (hl : l = p.ulen)
    (hagreed : s.dlp.agreed < l) :
    sendDataIn tag l d p bs false s = { s with
      out := s.out ++ [.dataIn tag false (bs.take s.dlp.agreed)]
      dlp.receiveCredits := s.dlp.receiveCredits - 1
      dlp.linkBytes := s.dlp.linkBytes + s.dlp.agreed
      dlp.run.sent := s.dlp.agreed
      dlp.run.partDone := s.dlp.agreed
      dlp.run.decoded := s.dlp.agreed } := by
  subst hl
  simp [sendDataIn, emit, hsent, hchunk, hpart, hdecoded, hbs, Nat.min_eq_left hagreed.le, hagreed.ne]

end

/-- The engine's window in UNPACKING, once the check decode has ended clean, is what lies before the drain pointer (R25, R41). -/
theorem syncWindow_unpacking {d : Slot} (hd : drainingSlot s = some d) (he : s.cpe.engine = .unpacking) (hc : s.cpe.checked = true) :
    syncWindow s = { s with cpe.window := bytesBefore (0 < s.dlp.run.decoded) s.fmc.position (slotObjects d) ++
      (match pointer s with
       | .part _ _ bs _ => bs.take s.dlp.run.partDone
       | _ => []) } := by
  rw [syncWindow, hd]
  exact if_pos ⟨he, hc⟩

end

/-- Settles O37: the tests of R99 pass or refuse, and a credit with the part under the drain pointer sends one frame. -/
theorem readRecordsDeliversInFrames : Obligations.ReadRecordsDeliversInFrames := by
  refine ⟨fun tag l n s hserved hstop hslots hempty => ⟨fun h1 h256 hl hmax hw hr => ?_, fun hcount => ?_, fun h1 h256 hlength => ?_⟩,
    fun tag l n qs d p bs s hq hphase hlink hcredit habort hpointer hends hsent hchunk hpart hdecoded hbs hl =>
      ⟨fun hwhole hagreed => ?_, fun hwhole hagreed _ => ?_⟩,
    fun d s hd he hc => syncWindow_unpacking hd he hc, fun s hcredit => ?_⟩
  · have hcount : ¬(n = 0 ∨ 256 < n) := by omega
    have hlength : badLength l = false := by simp [badLength]; omega
    rw [readRecords_reads hserved hstop hslots hempty (by simp [readFieldTest, hcount, hlength]) hw hr]
    rfl
  · exact readRecords_refused hserved hstop hslots (by simp [readFieldTest, hcount])
  · have hbad : badLength l = true := by simpa [badLength] using hlength
    have hcount : ¬(n = 0 ∨ 256 < n) := by omega
    exact readRecords_refused hserved hstop hslots (by simp [readFieldTest, hcount, hbad])
  · have hstep := dataInStep_sends hq hphase hlink hcredit habort hpointer hends (by omega)
    rw [sendDataIn_whole hends hsent hchunk hpart hdecoded hbs hwhole hagreed] at hstep
    exact finishes hstep
  · have hstep := dataInStep_sends hq hphase hlink hcredit habort hpointer hends (by omega)
    rw [sendDataIn_first hsent hchunk hpart hdecoded hbs hwhole hagreed] at hstep
    exact finishes hstep
  · exact finishes (dataInStep_no_credit hcredit)

end Sys2Proof.Machine
end

section
/-! SUPPORT. What the operations of the Read Channel leave unchanged (R56, R92, R110, R113, R152 to R156). -/

namespace Sys2Proof.Machine

variable (s : State)

/-- A phase that begins leaves the place under the head. -/
@[simp] theorem enterPhase_place (op : Operation) : here (enterPhase op s) = here s := by
  unfold enterPhase here
  dsimp only
  split <;> rfl

/-- A request for a start to stream leaves the place under the head. -/
@[simp] theorem startStream_place (w : Work) (p : Place) (k : Option Nat) : here (startStream w p k s) = here s := by
  unfold startStream request
  split
  · rfl
  · split
    · exact enterPhase_place s _
    · split <;> rfl

/-- The tape is left to what goes on, or brought to rest. -/
@[simp] theorem restReader_frame : MovesTapeOnly s (restReader s) := by
  unfold restReader
  repeat' split
  all_goals simp

/-- A rise of the Condition Level takes no sample, and clears no event. -/
@[simp] theorem riseTo_samples (l : Level) : (riseTo l s).hcm.samples = s.hcm.samples := by
  unfold riseTo setConditionCap
  dsimp only
  split <;> simp

theorem riseTo_rises (l : Level) : EventsRise s (riseTo l s) := by
  have hlatched : EventsRise s (latchAll (riseEvents s.hcm.level l)
      (setConditionCap (levelCap l) { s with hcm.level := l, hcm.cleaningCall := true })) :=
    (EventsRise.of_events_eq (by simp [setConditionCap])).trans (latchAll_rises _ _)
  unfold riseTo
  dsimp only
  split
  · exact hlatched.trans (reportFault_rises _ _ _)
  · exact hlatched

@[simp] theorem headSample_samples (n : Nat) : (headSample n s).hcm.samples = s.hcm.samples + 1 := by
  unfold headSample testLevel
  dsimp only
  split <;> simp

theorem headSample_rises (n : Nat) : EventsRise s (headSample n s) := by
  unfold headSample testLevel
  dsimp only
  split
  · exact (EventsRise.of_events_eq rfl).trans (riseTo_rises _ _)
  · exact .of_events_eq rfl

/-- The end of collecting reaches the Read Channel alone (R92). -/
theorem endCollecting_eq : endCollecting s = { s with
    rch.duty := .idle
    rch.current := none
    rch.lastTaken := none
    rch.next := none
    rch.targetRead := false
    rch.offset := .none
    rch.resume := (endCollecting s).rch.resume } := rfl

/-- Where read-ahead is STOPPED already, its stop at the EOD position changes nothing (R56). -/
theorem stopAhead_stopped (h : s.dbf.readAheadActive = false) : stopAhead s = s := by
  unfold stopAhead
  split
  · split
    · rw [← h]
    · rfl
  · rfl

/-- The drop of the read side counts nothing in the Read Channel, and clears no event. -/
@[simp] theorem dropReadSide_counts (count : Bool) : (dropReadSide count s).rch.unrecovered = s.rch.unrecovered
    ∧ (dropReadSide count s).events = s.events := by
  unfold dropReadSide stopCollecting stopUnpacking dropPositionSearch
  dsimp only
  repeat' split
  all_goals simp

@[simp] theorem finishHead_unrecovered (r : Reply) : (finishHead r s).rch.unrecovered = s.rch.unrecovered := by
  unfold finishHead
  split
  · rfl
  · dsimp only
    repeat' split
    all_goals simp

end Sys2Proof.Machine
end

section
/-! SUPPORT. The check decode of the DRAINING slot, and the freeze on BUFFER MEMORY (R38, R39, R187, R188). -/

namespace Sys2Proof.Machine

section
variable {s : State}

/-! ## The check decode (R38, R39, R187) -/

section
variable {d : Slot}

/-- With nothing DRAINING, or its check made, the end of a check decode changes nothing (log entry 2). -/
theorem decodeEnds_nothing {ok : Bool} (hnone : drainingSlot s = none ∨ s.cpe.checked = true) : decodeEnds ok s = s := by
  rw [decodeEnds, if_pos (by simpa using hnone)]

/-- A data set that decodes is checked, and the window follows the drain pointer (R25, R38). -/
theorem decodeEnds_clean (hd : drainingSlot s = some d) (hchecked : s.cpe.checked = false)
    (hdecodes : (decodeDataSet d.entries d.payload).isSome = true) : decodeEnds true s = syncWindow { s with cpe.checked := true } := by
  simp [decodeEnds, checkDecode, hd, hchecked, hdecodes]

theorem decodeEnds_formatError (hd : drainingSlot s = some d) (hchecked : s.cpe.checked = false)
    (hdecodes : decodeDataSet d.entries d.payload = none) : decodeEnds true s = formatErrorDrained d s := by
  simp [decodeEnds, checkDecode, hd, hchecked, hdecodes]

theorem decodeEnds_bad (hd : drainingSlot s = some d) (hchecked : s.cpe.checked = false) :
    decodeEnds false s = bufferFault .payloadCheck s := by
  simp [decodeEnds, hd, hchecked]

end

/-- The engine's window alone follows the drain pointer (R25, R41). -/
theorem syncWindow_cpe : (syncWindow s).cpe = { s.cpe with window := (syncWindow s).cpe.window }
    ∧ syncWindow s = { s with cpe := (syncWindow s).cpe } := by
  unfold syncWindow
  repeat' split
  all_goals exact ⟨rfl, rfl⟩

/-- At the beginning of a record the window is what lies before it in the data set (R25, R41). -/
theorem syncWindow_fresh {d : Slot} (hd : drainingSlot s = some d) (he : s.cpe.engine = .unpacking) (hchecked : s.cpe.checked = true)
    (hdecoded : s.dlp.run.decoded = 0) (hpart : s.dlp.run.partDone = 0) :
    (syncWindow s).cpe.window = bytesBefore false s.fmc.position (slotObjects d) := by
  rw [syncWindow_unpacking hd he hchecked]
  simp only [hdecoded, hpart]
  cases pointer s <;> simp

/-- A read that ends at an unrecoverable data set drops the read side (R59, R100). -/
theorem failRead_frame (d : Slot) : (failRead d s).rch.unrecovered = s.rch.unrecovered ∧ (failRead d s).dbf.readRing = []
    ∧ (failRead d s).dbf.readAheadActive = false ∧ EventsRise s (failRead d s) := by
  unfold failRead
  dsimp only
  split
  · refine ⟨by simp [finishRead], by simp, by simp, .trans ?_ (.of_events_eq (dropReadSide_counts _ _).2)⟩
    refine .trans (.of_events_eq ?_) (finishHead_rises _ _)
    rfl
  · exact ⟨by simp, by simp, by simp, .of_events_eq (by simp)⟩

end

/-! ## A freeze on BUFFER MEMORY (R187, R188) -/

section
variable (s : State)

@[simp] theorem dropEmptyOpen_reads : (dropEmptyOpen s).frg = s.frg ∧ (dropEmptyOpen s).dbf.readRing = s.dbf.readRing := by
  unfold dropEmptyOpen
  repeat' split
  all_goals simp

@[simp] theorem dropUnplaced_reads (tag : Tag) : (dropUnplaced tag s).frg = s.frg
    ∧ (dropUnplaced tag s).dbf.readRing = s.dbf.readRing := by
  unfold dropUnplaced dropRecords
  repeat' split
  all_goals simp

@[simp] theorem dropLinkOperation_frg : (dropLinkOperation s).frg = s.frg := by
  unfold dropLinkOperation
  repeat' split
  all_goals rfl

/-- The end of the running command leaves the Fault Register and the read ring, and clears no event (R188). -/
theorem endRunning_frame (r : Reason) (u : FaultUnit) : (endRunning r u s).frg = s.frg
    ∧ (endRunning r u s).dbf.readRing = s.dbf.readRing ∧ EventsRise s (endRunning r u s) := by
  unfold endRunning
  split
  · exact ⟨by simp, by simp, (EventsRise.of_events_eq (by simp)).trans (endHead_rises _ _)⟩
  · exact ⟨rfl, rfl, .refl s⟩

@[simp] theorem freezeBlocks_frame : (freezeBlocks s).frg = s.frg ∧ (freezeBlocks s).dbf.readRing = []
    ∧ (freezeBlocks s).events = s.events := by
  simp [freezeBlocks, endFlush, writerFault]

/-- A unit that freezes the drive makes it FAULTED and latches Drive Faulted (R187). -/
theorem reportFault_freezes {u : FaultUnit} (k : FaultCause) (hu : u.freezes = true) :
    (reportFault u k s).frg.condition = .faulted ∧ EventsRise (latch .driveFaulted s) (reportFault u k s) := by
  unfold reportFault enterRecord copyRecord
  dsimp only
  rw [if_pos hu]
  split <;> exact ⟨rfl, .of_events_eq rfl⟩

/-- A failed payload check freezes the drive, with the read side dropped (R187, R188). -/
theorem bufferFault_frame (k : FaultCause) : (bufferFault k s).frg.condition = .faulted ∧ (bufferFault k s).dbf.readRing = []
    ∧ EventsRise (latch .driveFaulted s) (bufferFault k s) := by
  obtain ⟨hcondition, hrise⟩ := reportFault_freezes s (u := .bufferMemory) k rfl
  obtain ⟨hfrg, hring, hevents⟩ := endRunning_frame (stopTape (freezeBlocks (reportFault .bufferMemory k s)))
    .driveFaulted .bufferMemory
  refine ⟨?_, ?_, (hrise.trans (.of_events_eq ?_)).trans hevents⟩
  · rw [bufferFault, hfrg]
    simpa using hcondition
  · rw [bufferFault, hring]
    simp
  · simp

end

end Sys2Proof.Machine
end

section
/-! SUPPORT. The frames that a collection meets, its completion, and the recovery ladder (R88 to R95). -/

namespace Sys2Proof.Machine

section
variable {s : State} {c : Collector} {h : Header}

/-! ## Frames that are taken (R91) -/

/-- The head has passed a place: it is the LPOS and the last place taken, and a blank stretch is over. -/
def passedAt (l : Nat) (s : State) : State :=
  { s with moc.lpos := some l, rch.lastTaken := some ⟨s.moc.wrap.getD 0, l⟩, rch.blanks := 0 }

/-- With nothing collecting a frame place passed changes nothing (log entry 2). -/
theorem readBoundary_no_collection {l : Nat} {x : Found} (hnow : collectingNow s = false) : readBoundary l x s = s := by
  simp [readBoundary, readFrame, hnow]

/-- What the collector makes of the place passed (R86, R91). -/
def placeTaken (x : Found) (c : Collector) (l : Nat) (s : State) : State :=
  match x with
  | .readable f => takeReadable f c (passedAt l s)
  | .unreadable => passedAt l s
  | .blank => takeBlank { s with moc.lpos := some l, rch.lastTaken := some ⟨s.moc.wrap.getD 0, l⟩ }

/-- While collecting, the place passed is taken, and the end of the wrap may follow (R91, R93). -/
theorem readBoundary_taken {l : Nat} {x : Found} (hnow : collectingNow s = true) (hc : s.rch.current = some c)
    (habort : s.dlp.run.aborting = false) :
    readBoundary l x s = if collectingNow (placeTaken x c l s) ∧ lastPlaceOfRegion (placeTaken x c l s)
      then endOfRegion (placeTaken x c l s) else placeTaken x c l s := by
  rw [readBoundary, if_neg (by simp [habort]), readFrame, if_neg (by simp [hnow])]
  split
  next hnone => rw [hc] at hnone; cases hnone
  next c' hsome =>
    obtain rfl : c = c' := Option.some.inj (hc.symm.trans hsome)
    cases x <;> rfl

/-- With room on the wrap nothing follows what the collector makes of a place, where that stays or ends the duty (R91, R93). -/
theorem readBoundary_makes {l : Nat} {x : Found} {t : State} (hnow : collectingNow s = true) (hc : s.rch.current = some c)
    (habort : s.dlp.run.aborting = false) (hroom : ¬remaining ⟨s.moc.wrap.getD 0, l⟩ < 328) (ht : placeTaken x c l s = t)
    (hafter : t.rch.duty = .idle ∨ here t = ⟨s.moc.wrap.getD 0, l⟩) : readBoundary l x s = t := by
  refine ((readBoundary_taken hnow hc habort).trans (if_neg ?_)).trans ht
  rw [ht]
  rintro ⟨hcollecting, hlast⟩
  rcases hafter with hidle | hplace
  · simp [collectingNow, hidle] at hcollecting
  · rw [lastPlaceOfRegion, hplace] at hlast
    exact hroom (of_decide_eq_true hlast)

/-! ## A frame joins the collector (R91) -/

section
variable (p : Place) (i : Nat) (syms : List PSym) (k : Option Header)

@[simp] theorem Collector.take_frame : (c.take p i syms k).dsn = c.dsn ∧ (c.take p i syms k).passNumber = c.passNumber
    ∧ (c.take p i syms k).missing = c.missing := by
  unfold Collector.take
  dsimp only
  repeat' split
  all_goals exact ⟨rfl, rfl, rfl⟩

variable {i}

/-- A frame with a new index is held; the copy start is the first place of the copy, and the first on a later wrap (R91, R93). -/
theorem Collector.take_new (hnew : c.held.any (fun f => f.index == i) = false) : c.take p i syms k = { c with
    held := c.held ++ [⟨i, syms⟩]
    header := if i = 0 then k else c.header
    lastPlace := some (furtherPlace c.lastPlace p)
    began := some (beganAt c.began p)
    copyStart := c.copyStart.elim (some p) fun q => if q.wrap = p.wrap then some q else some p } := by
  unfold Collector.take
  dsimp only
  rw [if_neg (ne_true_of_eq_false hnew)]
  split
  next hnone =>
    have hstart : c.copyStart = none := hnone
    rw [hstart]
    rfl
  next q hsome =>
    have hstart : c.copyStart = some q := hsome
    simp only [hstart, Option.elim_some]
    split <;> rfl

end

/-- A collector that is not full goes on (R92). -/
theorem completeCurrent_goes_on (hc : s.rch.current = some c) (hheld : c.held.length < 33) : completeCurrent s = s := by
  simp [completeCurrent, completeFrom, hc, hheld]

/-! ## A collection completes (R92) -/

/-- The 33rd frame with a good header fills the slot: Expected Object, the counts and the sample follow (R92). -/
def completedClean (h : Header) (c : Collector) (s : State) : State :=
  headSample (sampleOf (c.missing.getD 0)) { changeRead c.dsn (Slot.fill h c) s with
    rch.expected := some h.after
    rch.dataSetsRead := s.rch.dataSetsRead + 1
    rch.recovered := if 0 < c.passNumber then s.rch.recovered + 1 else s.rch.recovered
    rch.offset := .none }

/-- With a header that fails, the slot is Unrecoverable, and nothing is known of the next object (R92). -/
def completedLost (c : Collector) (s : State) : State :=
  headSample (sampleOf (c.missing.getD 0)) { changeRead c.dsn (Slot.lost .formatError c) s with
    rch.unrecovered := s.rch.unrecovered + 1
    rch.expected := none
    rch.next := none
    dbf.readAheadActive := false }

/-- A header follows the Expected Object where one is known (R92). -/
def headerFollows (h : Header) (s : State) : Bool := match s.rch.expected with | some e => e == h.firstObject | none => true

/-- Read-ahead STOPPED begins nothing after a completion. -/
theorem goesOn_stopped (h : s.dbf.readAheadActive = false) : goesOn s = false := by simp [goesOn, h]

theorem completeCurrent_clean (hc : s.rch.current = some c) (hheld : c.held.length = 33) (hh : c.header = some h)
    (hgood : (h.consistent && headerFollows h s) = true) (hahead : s.dbf.readAheadActive = false) :
    completeCurrent s = endReading (s.rch.duty == .recover) (completedClean h c s) := by
  have hstop : goesOn (completedClean h c s) = false := goesOn_stopped (by simpa [completedClean, changeRead] using hahead)
  rw [completeCurrent, show 98 = 97 + 1 from rfl, completeFrom]
  split
  next hnone => rw [hc] at hnone; cases hnone
  next c' hsome =>
    obtain rfl : c = c' := Option.some.inj (hc.symm.trans hsome)
    rw [if_neg (by omega), hh]
    exact (if_pos hgood).trans (if_neg (ne_true_of_eq_false hstop))

theorem completeCurrent_lost (hc : s.rch.current = some c) (hheld : c.held.length = 33) (hh : c.header = some h)
    (hbad : (h.consistent && headerFollows h s) = false) :
    completeCurrent s = restReader (endCollecting (latch .readFailure (completedLost c s))) := by
  rw [completeCurrent, show 98 = 97 + 1 from rfl, completeFrom]
  split
  next hnone => rw [hc] at hnone; cases hnone
  next c' hsome =>
    obtain rfl : c = c' := Option.some.inj (hc.symm.trans hsome)
    rw [if_neg (by omega), hh]
    exact if_neg (ne_true_of_eq_false hbad)

/-- The end of reading leaves the Read Channel idle and the rest of the drive, the tape apart, where read-ahead is STOPPED (R92). -/
theorem endReading_frame {ladder : Bool} (hahead : s.dbf.readAheadActive = false) :
    (endReading ladder s).rch = { s.rch with
        duty := .idle, current := none, lastTaken := none, next := none, targetRead := false, offset := .none
        resume := (endReading ladder s).rch.resume }
      ∧ (endReading ladder s).fmc = s.fmc ∧ (endReading ladder s).hcm = s.hcm ∧ (endReading ladder s).dbf = s.dbf := by
  have hstopped : ({ s.dbf with readAheadActive := false } : Dbf) = s.dbf := by rw [← hahead]
  unfold endReading
  rw [stopAhead_stopped s hahead, endCollecting_eq]
  dsimp only
  repeat' split
  all_goals simp [hstopped]

/-- After a ladder whose last pass met a frame of a later data set, reading resumes where that pass ended (R95). -/
theorem endReading_resume (hahead : s.dbf.readAheadActive = false) (hfinal : s.rch.lastEndFinal = false) (hend : s.rch.lastEnd ≠ none) :
    (endReading true s).rch.resume = s.rch.lastEnd := by
  unfold endReading
  rw [stopAhead_stopped s hahead]
  obtain ⟨p, hp⟩ := Option.ne_none_iff_exists'.1 hend
  simp [hfinal, hp]

/-- A completion moves the counts, the Expected Object, the slot and the HCI (R92, R153). -/
theorem completedClean_frame : (completedClean h c s).rch = { s.rch with
        expected := some h.after
        dataSetsRead := s.rch.dataSetsRead + 1
        recovered := if 0 < c.passNumber then s.rch.recovered + 1 else s.rch.recovered
        offset := .none }
    ∧ (completedClean h c s).fmc = s.fmc ∧ (completedClean h c s).dbf = (changeRead c.dsn (Slot.fill h c) s).dbf
    ∧ (completedClean h c s).hcm.hci = hciAfter s.hcm.hci (sampleOf (c.missing.getD 0))
    ∧ (completedClean h c s).hcm.samples = s.hcm.samples + 1 := by
  simp [completedClean]

theorem completedLost_frame : (completedLost c s).rch = { s.rch with
        unrecovered := s.rch.unrecovered + 1, expected := none, next := none }
    ∧ (completedLost c s).fmc = s.fmc
    ∧ (completedLost c s).dbf = { (changeRead c.dsn (Slot.lost .formatError c) s).dbf with readAheadActive := false }
    ∧ (completedLost c s).hcm.hci = hciAfter s.hcm.hci (sampleOf (c.missing.getD 0))
    ∧ (completedLost c s).hcm.samples = s.hcm.samples + 1 ∧ (completedLost c s).events.length = s.events.length := by
  refine ⟨?_, ?_, ?_, ?_, ?_, ((EventsRise.of_events_eq rfl).trans (headSample_rises _ _)).1⟩ <;> simp [completedLost]

/-- What a change of a read slot makes of the ring's slots (R45). -/
theorem mem_changeRead {dsn : Nat} {f : Slot → Slot} {x : Slot} (hx : x ∈ (changeRead dsn f s).dbf.readRing)
    (hdsn : x.dsn = dsn) : ∃ d, x = f d := by
  obtain ⟨d, -, rfl⟩ := List.mem_map.1 hx
  split at hdsn
  · rename_i hd
    exact ⟨d, if_pos hd⟩
  · contradiction

section
variable (hc : s.rch.current = some c) (hheld : c.held.length = 33) (hh : c.header = some h)
include hc hheld hh

/-- What a completion leaves where its header is good (R92, R95). -/
theorem completeCurrent_clean_leaves (hgood : (h.consistent && headerFollows h s) = true) (hahead : s.dbf.readAheadActive = false) :
    (completeCurrent s).rch.expected = some h.after ∧ (completeCurrent s).rch.dataSetsRead = s.rch.dataSetsRead + 1
      ∧ (completeCurrent s).rch.recovered = s.rch.recovered + (if 0 < c.passNumber then 1 else 0)
      ∧ (completeCurrent s).rch.unrecovered = s.rch.unrecovered
      ∧ (∀ x ∈ (completeCurrent s).dbf.readRing, x.dsn = c.dsn → ∃ d, x = Slot.fill h c d)
      ∧ (s.rch.duty = .recover → s.rch.lastEndFinal = false → s.rch.lastEnd ≠ none →
          (completeCurrent s).rch.resume = s.rch.lastEnd) := by
  obtain ⟨hrch, -, hdbf, -, -⟩ := completedClean_frame (s := s) (c := c) (h := h)
  have hstopped : (completedClean h c s).dbf.readAheadActive = false := by rw [hdbf]; exact hahead
  obtain ⟨herch, -, -, hedbf⟩ := endReading_frame (ladder := s.rch.duty == .recover) hstopped
  rw [completeCurrent_clean hc hheld hh hgood hahead]
  refine ⟨?_, ?_, ?_, ?_, ?_, fun hduty hfinal hend => ?_⟩
  · rw [herch, hrch]
  · rw [herch, hrch]
  · rw [herch, hrch]
    dsimp only
    split <;> rfl
  · rw [herch, hrch]
  · rw [hedbf, hdbf]
    exact fun x hx hdsn => mem_changeRead hx hdsn
  · rw [hduty, beq_self_eq_true, endReading_resume hstopped (by rw [hrch]; exact hfinal) (by rw [hrch]; exact hend), hrch]

/-- What a completion leaves where its header fails (R92). -/
theorem completeCurrent_lost_leaves (hbad : (h.consistent && headerFollows h s) = false) :
    (completeCurrent s).rch.expected = none ∧ (completeCurrent s).rch.dataSetsRead = s.rch.dataSetsRead
      ∧ (completeCurrent s).rch.unrecovered = s.rch.unrecovered + 1
      ∧ (s.events.length = 25 → (flagsOf 12 (completeCurrent s).events).latched = true)
      ∧ (∀ x ∈ (completeCurrent s).dbf.readRing, x.dsn = c.dsn → ∃ d, x = Slot.lost .formatError c d) := by
  obtain ⟨hrch, -, hdbf, -, -, hevents⟩ := completedLost_frame (s := s) (c := c)
  have hring : (completeCurrent s).dbf.readRing = (changeRead c.dsn (Slot.lost .formatError c) s).dbf.readRing := by
    rw [completeCurrent_lost hc hheld hh hbad]
    simp [endCollecting, hdbf]
  refine ⟨?_, ?_, ?_, fun hlength => ?_, fun x hx hdsn => mem_changeRead (hring ▸ hx) hdsn⟩
  · simp [completeCurrent_lost hc hheld hh hbad, endCollecting, hrch]
  · simp [completeCurrent_lost hc hheld hh hbad, endCollecting, hrch]
  · simp [completeCurrent_lost hc hheld hh hbad, endCollecting, hrch]
  · rw [completeCurrent_lost hc hheld hh hbad]
    exact latched_after (e := .readFailure) (.of_events_eq (by simp [endCollecting])) (hevents.trans hlength)

/-- Whatever its header, a completion with read-ahead STOPPED ends collecting, and takes the sample of the frames missing after pass 0
(R92, R152, R153). -/
theorem completeCurrent_ends (hahead : s.dbf.readAheadActive = false) :
    (completeCurrent s).rch.duty = .idle ∧ (completeCurrent s).rch.current = none ∧ (completeCurrent s).rch.next = none
      ∧ (completeCurrent s).rch.targetRead = false ∧ (completeCurrent s).fmc = s.fmc
      ∧ (completeCurrent s).hcm.hci = hciAfter s.hcm.hci (sampleOf (c.missing.getD 0))
      ∧ (completeCurrent s).hcm.samples = s.hcm.samples + 1 := by
  cases hgood : h.consistent && headerFollows h s with
  | true =>
    obtain ⟨-, hfmc, hdbf, hhci, hsamples⟩ := completedClean_frame (s := s) (c := c) (h := h)
    obtain ⟨herch, hefmc, hehcm, -⟩ := endReading_frame (ladder := s.rch.duty == .recover) (s := completedClean h c s)
      (by rw [hdbf]; exact hahead)
    rw [completeCurrent_clean hc hheld hh hgood hahead, herch, hefmc, hehcm, hfmc, hhci, hsamples]
    exact ⟨rfl, rfl, rfl, rfl, rfl, rfl, rfl⟩
  | false =>
    obtain ⟨-, hfmc, -, hhci, hsamples, -⟩ := completedLost_frame (s := s) (c := c)
    rw [completeCurrent_lost hc hheld hh hgood]
    simp [endCollecting, hfmc, hhci, hsamples]

end

theorem headerFollows_of (hexpected : s.rch.expected = none ∨ s.rch.expected = some h.firstObject) : headerFollows h s = true := by
  rcases hexpected with he | he <;> simp [headerFollows, he]

theorem headerFollows_not {e : Nat} (he : s.rch.expected = some e) (hne : e ≠ h.firstObject) : headerFollows h s = false := by
  simp [headerFollows, he, hne]

/-! ## The incompleteness condition (R90, R94, R95) -/

/-- The place that met the incompleteness condition is kept, and what ends the data for certain stops read-ahead (R56, R90). -/
def endMet (met : EndMet) (s : State) : State :=
  { s with
    rch.lastEnd := some (here s)
    rch.lastEndFinal := met != .later
    dbf.readAheadActive := s.dbf.readAheadActive && met != .final }

/-- What follows the condition: the end of recorded data, the ladder's first pass, its next pass, or the end of the ladder (R90, R94,
R95). -/
theorem incomplete_eq {met : EndMet} (hc : s.rch.current = some c) : incomplete met s =
    let c := { c with laterMet := c.laterMet || met == .later }
    if c.laterMet = false ∧ c.held.isEmpty then endOfRecorded c (endMet met s)
    else if s.rch.duty = .collect then
      beginPass 1 { c with missing := some (33 - c.held.length) } { endMet met s with rch.pass0Step := s.moc.step }
    else if c.passNumber < 6 then beginPass (c.passNumber + 1) c (endMet met s)
    else ladderLost c (endMet met s) := by
  unfold incomplete
  split
  next hnone => rw [hc] at hnone; cases hnone
  next c' hsome =>
    obtain rfl : c = c' := Option.some.inj (hc.symm.trans hsome)
    rfl

/-- In pass 0 a frame of d + 2 or higher begins the ladder (R90, R94). -/
theorem incomplete_collect (hc : s.rch.current = some c) (hduty : s.rch.duty = .collect) :
    incomplete .later s = beginPass 1 { c with laterMet := true, missing := some (33 - c.held.length) }
      { endMet .later s with rch.pass0Step := s.moc.step } := by
  simp [incomplete_eq hc, hduty]

/-- A pass that meets one gives way to the next (R94). -/
theorem incomplete_recover (hc : s.rch.current = some c) (hduty : s.rch.duty = .recover) (hpass : c.passNumber < 6) :
    incomplete .later s = beginPass (c.passNumber + 1) { c with laterMet := true } (endMet .later s) := by
  simp [incomplete_eq hc, hduty, hpass]

/-- After pass 6 the data set is lost (R95). -/
theorem incomplete_last (hc : s.rch.current = some c) (hduty : s.rch.duty = .recover) (hpass : 6 ≤ c.passNumber) :
    incomplete .later s = ladderLost { c with laterMet := true } (endMet .later s) := by
  simp [incomplete_eq hc, hduty, Nat.not_lt.2 hpass]

/-- A valid EOD frame with no frame held and none of d + 2 met is the end of recorded data (R90). -/
theorem incomplete_final (hc : s.rch.current = some c) (hheld : c.held = []) (hlater : c.laterMet = false) :
    incomplete .final s = endOfRecorded c (endMet .final s) := by
  have hsame : ({ c with laterMet := c.laterMet || EndMet.final == .later } : Collector) = c := by
    cases c
    dsimp only at hlater
    subst hlater
    rfl
  rw [incomplete_eq hc, hsame]
  exact if_pos ⟨hlater, by simp [hheld]⟩

/-- A recovery pass begins with its speed and offset; the place under the head stays until the tape moves (R94). -/
theorem beginPass_frame (n : Nat) : (beginPass n c s).rch = { s.rch with
        duty := .recover
        current := some { c with passNumber := n }
        offset := (passSettings n).2
        passStep := if (passSettings n).1 then min s.rch.pass0Step (capOf s) else 1
        lastTaken := none
        blanks := 0 }
    ∧ (beginPass n c s).fmc = s.fmc ∧ here (beginPass n c s) = here s := by
  simp [beginPass]
  rfl

/-- The end of the ladder: the slot is Unreadable, with what the header gives (R95). -/
theorem ladderLost_frame : (ladderLost c s).rch = { s.rch with
        duty := .idle, current := none, lastTaken := none, next := none, targetRead := false, offset := .none
        resume := some (here s), unrecovered := s.rch.unrecovered + 1, expected := c.header.map (fun h => h.after) }
    ∧ (ladderLost c s).fmc = s.fmc
    ∧ (ladderLost c s).dbf = { (changeRead c.dsn (Slot.lost .unreadable c) s).dbf with readAheadActive := false }
    ∧ (ladderLost c s).hcm.hci = hciAfter s.hcm.hci 1000 ∧ EventsRise (latch .readFailure s) (ladderLost c s) := by
  refine ⟨?_, ?_, ?_, ?_, ?_⟩
  case refine_5 =>
    have hsampled := headSample_rises (latch .readFailure { changeRead c.dsn (Slot.lost .unreadable c) s with
      rch.unrecovered := s.rch.unrecovered + 1
      rch.expected := c.header.map (fun h => h.after)
      rch.next := none
      dbf.readAheadActive := false }) 1000
    exact (EventsRise.of_events_eq rfl).trans (hsampled.trans (.of_events_eq (by simp [ladderLost, endCollecting])))
  all_goals simp [ladderLost, endCollecting]

/-- A slot that is freed leaves the read ring (R45). -/
@[simp] theorem freeReadSlot_frame (dsn : Nat) (s : State) : (freeReadSlot dsn s).rch = s.rch ∧ (freeReadSlot dsn s).fmc = s.fmc
    ∧ (freeReadSlot dsn s).dlp = s.dlp ∧ (freeReadSlot dsn s).out = s.out
    ∧ (freeReadSlot dsn s).dbf.readRing = s.dbf.readRing.filter (fun d => d.dsn ≠ dsn)
    ∧ (freeReadSlot dsn s).dbf.readAheadActive = s.dbf.readAheadActive := by
  unfold freeReadSlot stopUnpacking
  dsimp only
  repeat' split
  all_goals simp

/-- The end of recorded data with no Read Records to end: the slot is free and read-ahead STOPPED (R90). -/
theorem endOfRecorded_frame (hread : readExecuting s = false) : (endOfRecorded c s).rch.duty = .idle
    ∧ (endOfRecorded c s).rch.current = none ∧ (endOfRecorded c s).dbf.readRing = s.dbf.readRing.filter (fun d => d.dsn ≠ c.dsn)
    ∧ (endOfRecorded c s).dbf.readAheadActive = false ∧ (endOfRecorded c s).fmc = s.fmc
    ∧ (endOfRecorded c s).rch.unrecovered = s.rch.unrecovered ∧ (endOfRecorded c s).out = s.out := by
  unfold endOfRecorded
  dsimp only
  rw [if_neg]
  · simp [endCollecting]
  · simp [readExecuting, endCollecting] at hread ⊢
    exact fun h => absurd h hread

/-! ## The places passed in a collection (R90, R91) -/

section
variable {l tag dsn i : Nat} {syms : List PSym}

/-- The collector with one more frame, at the place passed. -/
def joined (l i : Nat) (syms : List PSym) (c : Collector) (s : State) : State :=
  { passedAt l s with rch.current := some (c.take ⟨s.moc.wrap.getD 0, l⟩ i syms none) }

theorem takeReadable_joins : takeReadable (.payload tag c.dsn i syms) c (passedAt l s) = completeCurrent (joined l i syms c s) :=
  if_pos rfl

theorem takeReadable_earlier (h : dsn < c.dsn) : takeReadable (.payload tag dsn i syms) c (passedAt l s) = passedAt l s := by
  rw [takeReadable, takeData, if_neg (by omega), if_neg (by omega), if_pos h]

theorem takeReadable_later (h : c.dsn + 2 ≤ dsn) :
    takeReadable (.payload tag dsn i syms) c (passedAt l s) = incomplete .later (passedAt l s) := by
  rw [takeReadable, takeData, if_neg (by omega), if_neg (by omega), if_neg (by omega)]

/-- The EOD frame that names the data set before the one wanted is valid where no frame of this or of the next has been met (R6). -/
theorem takeReadable_eod {after : Nat} (hheld : c.held = []) (hnext : s.rch.next = none) :
    takeReadable (.eod tag (if c.dsn = 0 then none else some (c.dsn - 1)) after) c (passedAt l s) = incomplete .final (passedAt l s) :=
  if_pos (by simp [passedAt, hnext, lastMet, hheld, eodValid])

variable (hnow : collectingNow s = true) (hc : s.rch.current = some c) (habort : s.dlp.run.aborting = false)
  (hroom : ¬remaining ⟨s.moc.wrap.getD 0, l⟩ < 328)
include hnow hc habort hroom

/-- A new frame of the data set wanted, with others still to come, is held (R91). -/
theorem readBoundary_held (hheld : c.held.length < 32) (hnew : c.held.any (fun f => f.index == i) = false) :
    readBoundary l (.readable (.payload tag c.dsn i syms)) s = joined l i syms c s := by
  refine readBoundary_makes hnow hc habort hroom ((takeReadable_joins (tag := tag)).trans (completeCurrent_goes_on rfl ?_)) (.inr rfl)
  rw [Collector.take_new _ _ _ hnew, List.length_append, List.length_singleton]
  omega

/-- The 33rd frame completes the data set (R92). -/
theorem readBoundary_completes (hheld : c.held.length = 32) (hnew : c.held.any (fun f => f.index == i) = false) (hi : i ≠ 0)
    (hh : c.header = some h) (hahead : s.dbf.readAheadActive = false) :
    readBoundary l (.readable (.payload tag c.dsn i syms)) s = completeCurrent (joined l i syms c s)
      ∧ (c.take ⟨s.moc.wrap.getD 0, l⟩ i syms none).held.length = 33
      ∧ (c.take ⟨s.moc.wrap.getD 0, l⟩ i syms none).header = some h := by
  have hfull : (c.take ⟨s.moc.wrap.getD 0, l⟩ i syms none).held.length = 33 := by simp [Collector.take_new _ _ _ hnew, hheld]
  have hkept : (c.take ⟨s.moc.wrap.getD 0, l⟩ i syms none).header = some h := by simp [Collector.take_new _ _ _ hnew, hi, hh]
  obtain ⟨hidle, -⟩ := completeCurrent_ends (s := joined l i syms c s) rfl hfull hkept hahead
  exact ⟨readBoundary_makes hnow hc habort hroom (takeReadable_joins (tag := tag)) (.inl hidle), hfull, hkept⟩

/-- A frame of d + 2 or higher in pass 0 begins the ladder at the same place (R90, R94). -/
theorem readBoundary_begins_ladder (hdsn : c.dsn + 2 ≤ dsn) (hduty : s.rch.duty = .collect) :
    readBoundary l (.readable (.payload tag dsn i syms)) s = beginPass 1
      { c with laterMet := true, missing := some (33 - c.held.length) }
      { endMet .later (passedAt l s) with rch.pass0Step := s.moc.step } :=
  readBoundary_makes hnow hc habort hroom ((takeReadable_later (tag := tag) hdsn).trans (incomplete_collect hc hduty))
    (.inr (beginPass_frame 1).2.2)

/-- A frame of d + 2 or higher in a pass before the last begins the next (R94). -/
theorem readBoundary_next_pass (hdsn : c.dsn + 2 ≤ dsn) (hduty : s.rch.duty = .recover) (hpass : c.passNumber < 6) :
    readBoundary l (.readable (.payload tag dsn i syms)) s =
      beginPass (c.passNumber + 1) { c with laterMet := true } (endMet .later (passedAt l s)) :=
  readBoundary_makes hnow hc habort hroom ((takeReadable_later (tag := tag) hdsn).trans (incomplete_recover hc hduty hpass))
    (.inr (beginPass_frame _).2.2)

/-- A frame of d + 2 or higher in the last pass loses the data set (R95). -/
theorem readBoundary_loses (hdsn : c.dsn + 2 ≤ dsn) (hduty : s.rch.duty = .recover) (hpass : 6 ≤ c.passNumber) :
    readBoundary l (.readable (.payload tag dsn i syms)) s = ladderLost { c with laterMet := true } (endMet .later (passedAt l s)) :=
  readBoundary_makes hnow hc habort hroom ((takeReadable_later (tag := tag) hdsn).trans (incomplete_last hc hduty hpass))
    (.inl (by rw [ladderLost_frame.1]))

/-- A valid EOD frame with no frame held and none of d + 2 met is the end of recorded data (R90). -/
theorem readBoundary_ends_data {after : Nat} (hheld : c.held = []) (hlater : c.laterMet = false) (hnext : s.rch.next = none)
    (hread : readExecuting s = false) :
    readBoundary l (.readable (.eod tag (if c.dsn = 0 then none else some (c.dsn - 1)) after)) s =
      endOfRecorded c (endMet .final (passedAt l s)) := by
  obtain ⟨hidle, -⟩ := endOfRecorded_frame (c := c) (s := endMet .final (passedAt l s)) hread
  exact readBoundary_makes hnow hc habort hroom ((takeReadable_eod (tag := tag) (after := after) hheld hnext).trans
    (incomplete_final hc hheld hlater)) (.inl hidle)

/-- A frame of d + 2 or higher leaves Format Control, whichever pass it ends (R90). -/
theorem readBoundary_later_fmc (hdsn : c.dsn + 2 ≤ dsn) : (readBoundary l (.readable (.payload tag dsn i syms)) s).fmc = s.fmc := by
  have hduty : s.rch.duty = .collect ∨ s.rch.duty = .recover := by
    simp only [collectingNow, Bool.and_eq_true, Bool.or_eq_true, beq_iff_eq] at hnow
    exact hnow.2
  rcases hduty with hcollect | hrecover
  · rw [readBoundary_begins_ladder hnow hc habort hroom hdsn hcollect]
    exact (beginPass_frame _).2.1
  · rcases Nat.lt_or_ge c.passNumber 6 with hpass | hpass
    · rw [readBoundary_next_pass hnow hc habort hroom hdsn hrecover hpass]
      exact (beginPass_frame _).2.1
    · rw [readBoundary_loses hnow hc habort hroom hdsn hrecover hpass]
      exact ladderLost_frame.2.1

end

/-- The offset of the pass after a given one, and whether it runs at step 1 (R94). -/
theorem passSettings_succ {n : Nat} (h1 : 1 ≤ n) (h6 : n < 6) :
    (passSettings (n + 1)).2 = (if n = 2 ∨ n = 4 then .positive else if n = 3 ∨ n = 5 then .negative else .none)
      ∧ ((passSettings (n + 1)).1 = false ↔ n = 1 ∨ n = 4 ∨ n = 5) := by
  interval_cases n <;> decide

end

/-- Settles O59: what the collector makes of each place passed has an equation above, and what it leaves is read off the completion, the
pass, or the end that the equation names. -/
theorem framesReadAndDecoded : Obligations.FramesReadAndDecoded := by
  refine ⟨fun l x s hnow => ?_, fun l tag dsn i syms c s hnow hc habort hroom => ⟨fun hdsn hheld hnew => ?_, fun hdsn => ?_, ?_, ?_,
      fun h hdsn hi hheld hnew hh hahead => ?_, fun hdsn => ?_, fun after hheld hlater hnext hread => ?_⟩,
    fun s hnone ok => ?_, fun d s hd hchecked => ⟨fun hdecodes => ?_, fun hdecodes => ?_, ?_⟩⟩
  · exact finishes (readBoundary_no_collection hnow)
  · subst hdsn
    refine finishes ((readBoundary_held hnow hc habort hroom hheld hnew).trans ?_)
    rw [joined, Collector.take_new _ _ _ hnew]
    cases c.copyStart <;> rfl
  · exact finishes (readBoundary_makes hnow hc habort hroom (takeReadable_earlier (tag := tag) hdsn) (.inr rfl))
  · exact finishes (readBoundary_makes hnow hc habort hroom rfl (.inr rfl))
  · exact finishes (readBoundary_makes hnow hc habort hroom (if_pos rfl) (.inr rfl))
  · subst hdsn
    obtain ⟨ht, hfull, hkept⟩ := readBoundary_completes (tag := tag) (syms := syms) hnow hc habort hroom hheld hnew hi hh hahead
    obtain ⟨hdsn, hpass, hmissing⟩ := Collector.take_frame (c := c) ⟨s.moc.wrap.getD 0, l⟩ i syms none
    obtain ⟨hduty, hcurrent, hnext, htarget, hfmc, hhci, hsamples⟩ :=
      completeCurrent_ends (s := joined l i syms c s) rfl hfull hkept hahead
    rw [hmissing] at hhci
    dsimp only
    rw [ht]
    refine ⟨finishes ht, hduty, hcurrent, hnext, htarget, hfmc, hhci, hsamples, fun hconsistent hexpected => ?_, fun hbad => ?_⟩
    · have hgood : (h.consistent && headerFollows h (joined l i syms c s)) = true := by
        rw [hconsistent, headerFollows_of (by exact hexpected)]
        rfl
      obtain ⟨hafter, hcount, hrecovered, hsame, hring, hresume⟩ :=
        completeCurrent_clean_leaves (s := joined l i syms c s) rfl hfull hkept hgood hahead
      rw [hpass] at hrecovered
      refine ⟨hafter, hcount, hrecovered, hsame, fun x hx hx' => ?_, hresume⟩
      obtain ⟨d, rfl⟩ := hring x hx (hx'.trans hdsn.symm)
      simp [Slot.fill]
    · have hbad : (h.consistent && headerFollows h (joined l i syms c s)) = false := by
        rcases hbad with hbad | ⟨e, he, hne⟩
        · rw [hbad, Bool.false_and]
        · rw [headerFollows_not (by exact he) hne, Bool.and_false]
      obtain ⟨hnone, hcount, hlost, hlatched, hring⟩ := completeCurrent_lost_leaves (s := joined l i syms c s) rfl hfull hkept hbad
      refine ⟨hnone, hcount, hlost, hlatched, fun x hx hx' => ?_⟩
      obtain ⟨d, rfl⟩ := hring x hx (hx'.trans hdsn.symm)
      exact ⟨rfl, rfl⟩
  · refine ⟨rfl, readBoundary_later_fmc hnow hc habort hroom hdsn, fun hduty => ?_, fun hduty h1 h6 => ?_, fun hduty h6 => ?_⟩
    · rw [readBoundary_begins_ladder hnow hc habort hroom hdsn hduty, (beginPass_frame 1).1]
      exact ⟨rfl, rfl, rfl, rfl, rfl⟩
    · obtain ⟨hoffset, hslow⟩ := passSettings_succ h1 h6
      rw [readBoundary_next_pass hnow hc habort hroom hdsn hduty h6, (beginPass_frame _).1]
      refine ⟨rfl, rfl, hoffset, ?_⟩
      by_cases hstep : c.passNumber = 1 ∨ c.passNumber = 4 ∨ c.passNumber = 5
      · rw [if_pos hstep]
        exact if_neg (ne_true_of_eq_false (hslow.2 hstep))
      · rw [if_neg hstep]
        exact if_pos (by simpa using mt hslow.1 hstep)
    · obtain ⟨hrch, -, hdbf, hhci, hevents⟩ := ladderLost_frame (c := { c with laterMet := true }) (s := endMet .later (passedAt l s))
      rw [readBoundary_loses hnow hc habort hroom hdsn hduty h6.ge, hrch, hdbf]
      refine ⟨rfl, rfl, rfl, rfl, rfl, rfl, rfl, hhci, fun x hx hx' => ?_, latched_after (e := .readFailure) hevents⟩
      obtain ⟨d, rfl⟩ := mem_changeRead (by exact hx) hx'
      exact ⟨rfl, rfl, rfl⟩
  · obtain ⟨hduty, hcurrent, hring, hahead, hfmc, hlost, hout⟩ :=
      endOfRecorded_frame (c := c) (s := endMet .final (passedAt l s)) hread
    have ht := readBoundary_ends_data (tag := tag) (after := after) hnow hc habort hroom hheld hlater hnext hread
    dsimp only
    rw [ht]
    exact ⟨finishes ht, hduty, hcurrent, hring, hahead, hfmc, hlost, hout⟩
  · exact finishes (decodeEnds_nothing hnone)
  · obtain ⟨hcpe, hsame⟩ := syncWindow_cpe (s := { s with cpe.checked := true })
    dsimp only
    rw [decodeEnds_clean hd hchecked hdecodes]
    exact ⟨finishes (decodeEnds_clean hd hchecked hdecodes), hcpe, hsame, fun he hdecoded hpart =>
      syncWindow_fresh (by exact hd) (by exact he) rfl (by exact hdecoded) (by exact hpart)⟩
  · obtain ⟨hlost, hring, hahead, hevents⟩ := failRead_frame
      (s := latch .readFailure { s with rch.unrecovered := s.rch.unrecovered + 1 }) { d with unrecoverable := some .formatError }
    dsimp only
    rw [decodeEnds_formatError hd hchecked hdecodes]
    exact ⟨finishes (decodeEnds_formatError hd hchecked hdecodes), hlost, hring, hahead,
      latched_after (e := .readFailure) ((EventsRise.of_events_eq rfl).trans hevents)⟩
  · obtain ⟨hcondition, hring, hevents⟩ := bufferFault_frame s .payloadCheck
    dsimp only
    rw [decodeEnds_bad hd hchecked]
    exact ⟨finishes (decodeEnds_bad hd hchecked), hcondition, hring, latched_after (e := .driveFaulted) hevents⟩

end Sys2Proof.Machine
end

section
/-! SUPPORT. What a command can do to the state, said once (`Effect`), and that a microsecond of the clock keeps a state sound. -/

namespace Sys2Proof.Machine

variable {P : Prop} {z s t : State}

/-- What a command makes of a state reached from `z`: a Power-On state (R182), one held in STARTING by the line, the end of a store
write (R186), or a state that keeps what `Keeps` names. -/
inductive Effect (P : Prop) (z s : State) (c : Instr) (t : State) : Prop where
  | started (j : Jumpers) (hc : c = .powerOn j ∨ c = .resetLine j) (ht : t = powerOnState j s)
  | heldInStart (hc : c = .resetLineAsserted) (ht : t = { powerOnState s.jumpers s with frg.lineAsserted := true })
  | stored (ok : Bool) (d : Stored) (hc : c = .storeWriteDone ok) (ht : Keeps P { z with pst.stored := d } t)
  | kept (ht : Keeps P z t)

/-- A store write that ends, with the notice that may follow (R176, R186). -/
theorem execStoreWriteDone_keeps {ok : Bool} (h : Keeps P z s) (ht : execStoreWriteDone ok s = .next t) :
    ∃ d, Keeps P { z with pst.stored := d } t := by
  obtain rfl := next_inj ht
  obtain ⟨d, hd⟩ := storeWriteEnds_keeps (ok := ok) h
  exact ⟨d, sendNotices_keeps hd⟩

/-- Every command has one of these effects. -/
theorem exec_effect {c : Instr} (h : Keeps P z s) (ht : exec c s = .next t) : Effect P z s c t := by
  cases c with
  | powerOn j => exact .started j (.inl rfl) (next_inj ht).symm
  | resetLine j => exact .started j (.inr rfl) (next_inj ht).symm
  | resetLineAsserted => exact .heldInStart rfl (next_inj ht).symm
  | storeWriteDone ok =>
    obtain ⟨d, hd⟩ := execStoreWriteDone_keeps h ht
    exact .stored ok d rfl hd
  | bufferMemoryTestDone _ _ => exact .kept (execBufferMemoryTestDone_keeps h ht)
  | lineSignalAppears => exact .kept (execLineSignalAppears_keeps h ht)
  | lineSignalLost => exact .kept (execLineSignalLost_keeps h ht)
  | hello _ => exact .kept (execHello_keeps h ht)
  | helloTimeout => exact .kept (execHelloTimeout_keeps h ht)
  | badCheckFrame => exact .kept (execBadCheckFrame_keeps h ht)
  | frameRejected => exact .kept (execFrameRejected_keeps h ht)
  | dataOut _ _ => exact .kept (execDataOut_keeps h ht)
  | receiveCredit _ => exact .kept (execReceiveCredit_keeps h ht)
  | dataInSend => exact .kept (execDataInSend_keeps h ht)
  | unknownCommand _ => exact .kept (execUnknownCommand_keeps h ht)
  | status _ => exact .kept (execStatus_keeps h ht)
  | identify _ => exact .kept (execIdentify_keeps h ht)
  | readPosition _ => exact .kept (execReadPosition_keeps h ht)
  | readCounters _ => exact .kept (execReadCounters_keeps h ht)
  | readAttribute _ _ => exact .kept (execReadAttribute_keeps h ht)
  | writeAttribute _ _ _ => exact .kept (execWriteAttribute_keeps h ht)
  | setSetting _ _ _ => exact .kept (execSetSetting_keeps h ht)
  | saveSettings _ => exact .kept (execSaveSettings_keeps h ht)
  | setEventMask _ _ _ => exact .kept (execSetEventMask_keeps h ht)
  | clearEvents _ _ => exact .kept (execClearEvents_keeps h ht)
  | abort _ _ => exact .kept (execAbort_keeps h ht)
  | custodyRequest _ => exact .kept (execCustodyRequest_keeps h ht)
  | custodyAnswer _ _ => exact .kept (execCustodyAnswer_keeps h ht)
  | release _ => exact .kept (execRelease_keeps h ht)
  | readFaultRecord _ => exact .kept (execReadFaultRecord_keeps h ht)
  | resetDrive _ => exact .kept (execResetDrive_keeps h ht)
  | writeRecords _ _ _ => exact .kept (execWriteRecords_keeps h ht)
  | writeFilemarks _ _ _ => exact .kept (execWriteFilemarks_keeps h ht)
  | flush _ => exact .kept (execFlush_keeps h ht)
  | readRecords _ _ _ => exact .kept (execReadRecords_keeps h ht)
  | space _ _ _ _ _ => exact .kept (execSpace_keeps h ht)
  | locate _ _ _ => exact .kept (execLocate_keeps h ht)
  | rewind _ _ => exact .kept (execRewind_keeps h ht)
  | rebuildDirectory _ => exact .kept (execRebuildDirectory_keeps h ht)
  | thread _ => exact .kept (execThread_keeps h ht)
  | unthread _ _ => exact .kept (execUnthread_keeps h ht)
  | eject _ => exact .kept (execEject_keeps h ht)
  | discardBuffer _ => exact .kept (execDiscardBuffer_keeps h ht)
  | queueHeadBegins => exact .kept (execQueueHeadBegins_keeps h ht)
  | poll => exact .kept (execPoll_keeps h ht)
  | libraryThread => exact .kept (execLibraryThread_keeps h ht)
  | libraryUnthread => exact .kept (execLibraryUnthread_keeps h ht)
  | libraryEject => exact .kept (execLibraryEject_keeps h ht)
  | libraryDriveReset => exact .kept (execLibraryDriveReset_keeps h ht)
  | libraryCustodyRequest => exact .kept (execLibraryCustodyRequest_keeps h ht)
  | libraryCustodyAnswer _ => exact .kept (execLibraryCustodyAnswer_keeps h ht)
  | custodyRelease => exact .kept (execCustodyRelease_keeps h ht)
  | setLibraryPolicy _ => exact .kept (execSetLibraryPolicy_keeps h ht)
  | libraryRecordIgnored => exact .kept (execLibraryRecordIgnored_keeps h ht)
  | libraryUnknownType _ => exact .kept (execLibraryUnknownType_keeps h ht)
  | libraryLineBreak => exact .kept (execLibraryLineBreak_keeps h ht)
  | breakEnds => exact .kept (execBreakEnds_keeps h ht)
  | custodyQuestionTimeout => exact .kept (execCustodyQuestionTimeout_keeps h ht)
  | graceTimeout => exact .kept (execGraceTimeout_keeps h ht)
  | cartridgeInserted _ => exact .kept (execCartridgeInserted_keeps h ht)
  | cmReadAttemptDone _ => exact .kept (execCmReadAttemptDone_keeps h ht)
  | stagePushDone => exact .kept (execStagePushDone_keeps h ht)
  | stageAttemptTimeout => exact .kept (execStageAttemptTimeout_keeps h ht)
  | stagePopDone => exact .kept (execStagePopDone_keeps h ht)
  | stagePopFailed => exact .kept (execStagePopFailed_keeps h ht)
  | sessionOpenWriteDone _ => exact .kept (execSessionOpenWriteDone_keeps h ht)
  | cmWriteBackDone _ => exact .kept (execCmWriteBackDone_keeps h ht)
  | ejectPushDone => exact .kept (execEjectPushDone_keeps h ht)
  | ejectPushTimeout => exact .kept (execEjectPushTimeout_keeps h ht)
  | useDecrementDone _ => exact .kept (execUseDecrementDone_keeps h ht)
  | cleaningRunDone => exact .kept (execCleaningRunDone_keeps h ht)
  | restTimerExpiry => exact .kept (execRestTimerExpiry_keeps h ht)
  | retensionDone => exact .kept (execRetensionDone_keeps h ht)
  | tensionTimeout => exact .kept (execTensionTimeout_keeps h ht)
  | rampDone _ => exact .kept (execRampDone_keeps h ht)
  | backhitchDone _ => exact .kept (execBackhitchDone_keeps h ht)
  | seekDone _ => exact .kept (execSeekDone_keeps h ht)
  | turnaroundDone _ => exact .kept (execTurnaroundDone_keeps h ht)
  | operationOverrun => exact .kept (execOperationOverrun_keeps h ht)
  | servoMark _ _ => exact .kept (execServoMark_keeps h ht)
  | servoLost => exact .kept (execServoLost_keeps h ht)
  | motionSecond => exact .kept (execMotionSecond_keeps h ht)
  | packRecordPart _ => exact .kept (execPackRecordPart_keeps h ht)
  | framePlace _ => exact .kept (execFramePlace_keeps h ht)
  | verifyFramePassed _ => exact .kept (execVerifyFramePassed_keeps h ht)
  | readFramePassed _ _ => exact .kept (execReadFramePassed_keeps h ht)
  | checkDecodeDone _ => exact .kept (execCheckDecodeDone_keeps h ht)
  | headerScanFrame _ _ => exact .kept (execHeaderScanFrame_keeps h ht)
  | rebuildFrame _ _ => exact .kept (execRebuildFrame_keeps h ht)
  | libraryAnswerSent => exact .kept (execLibraryAnswerSent_keeps h ht)

/-- Whatever its effect, a command leaves a sound state sound. -/
theorem Effect.sound {c : Instr} (h : Effect True z s c t) : Sound t := by
  cases h with
  | started j _ ht => subst ht; exact powerOnState_sound
  | heldInStart _ ht => subst ht; exact powerOnState_sound (s := s) (j := s.jumpers)
  | stored _ _ _ ht => exact ht.sound trivial
  | kept ht => exact ht.sound trivial

/-- The LPOS between marks leaves the speed caps (R118, R122). -/
theorem interpolate_caps (s : State) :
    (interpolate s).moc.formatCap = s.moc.formatCap ∧ (interpolate s).moc.conditionCap = s.moc.conditionCap := by
  unfold interpolate
  split <;> exact ⟨rfl, rfl⟩

/-- The ramp down of a seek leaves the speed caps (R116, R122). -/
theorem settleSeek_caps (s : State) :
    (settleSeek s).moc.formatCap = s.moc.formatCap ∧ (settleSeek s).moc.conditionCap = s.moc.conditionCap := by
  unfold settleSeek
  split <;> exact ⟨rfl, rfl⟩

/-- A microsecond leaves the speed caps (R122). -/
theorem tick_caps (s : State) :
    (tick s).moc.formatCap = s.moc.formatCap ∧ (tick s).moc.conditionCap = s.moc.conditionCap := by
  refine ⟨(settleSeek_caps _).1.trans (interpolate_caps _).1, (settleSeek_caps _).2.trans (interpolate_caps _).2⟩

/-- A microsecond changes nothing that soundness speaks of (log 1). -/
theorem tick_sound (h : Sound s) : Sound (tick s) := by
  obtain ⟨hformat, hcondition⟩ := tick_caps s
  unfold Sound
  rw [hformat, hcondition]
  exact h

/-- Settles O3: a step is a command, whose effects each leave a sound state, or a microsecond of the clock. -/
theorem stepKeepsSound : Obligations.StepKeepsSound := by
  intro s t hs ht
  unfold step at ht
  split at ht
  · rename_i c rest _
    have hrest : Sound { s with pending := rest } := hs
    exact (exec_effect (Keeps.refl fun _ => hrest) ht).sound
  · obtain rfl := next_inj ht
    exact tick_sound hs

end Sys2Proof.Machine
end

section
/-! SUPPORT. The ranges of the settings, and what loading an item makes of it (R57, R158, R185). -/

namespace Sys2Proof.Machine

/-! ## Ranges -/

theorem limitOf_eq_none {n : Nat} : limitOf n = none ↔ 96 < n := by simp [limitOf]

theorem switchOf_eq_none {n : Nat} : switchOf n = none ↔ 2 ≤ n := by
  unfold switchOf
  repeat' split
  all_goals simp only [reduceCtorEq, true_iff, false_iff]; omega

theorem policyOf_eq_none {n : Nat} : policyOf n = none ↔ n = 0 ∨ 3 < n := by
  unfold policyOf
  repeat' split
  all_goals simp only [reduceCtorEq, true_iff, false_iff]; omega

theorem payloadOf_eq_none {n : Nat} : payloadOf n = none ↔ n < 4096 ∨ 65536 < n := by
  unfold payloadOf
  split
  all_goals simp only [reduceCtorEq, true_iff, false_iff]; omega

theorem overrideOf_eq_none {n : Nat} : overrideOf n = none ↔ 17 ≤ n := by
  unfold overrideOf
  repeat' split
  all_goals simp only [reduceCtorEq, true_iff, false_iff]; omega

theorem hciOf_eq_none {n : Nat} : hciOf n = none ↔ 1000 < n := by simp [hciOf]

theorem levelFromCode_eq_none {n : Nat} : levelFromCode n = none ↔ 3 < n := by
  unfold levelFromCode
  repeat' split
  all_goals simp only [reduceCtorEq, true_iff, false_iff]; omega

theorem switchOf_code (b : Bool) : switchOf (if b then 1 else 0) = some b := by cases b <;> rfl

theorem policyOf_code (p : Policy) : policyOf (policyCode p) = some p := by cases p <;> rfl

/-- The codes of the four levels are their ranks (R158). -/
theorem levelFromCode_rank {n : Nat} (h : n ≤ 3) : ∃ l, levelFromCode n = some l ∧ l.rank = n := by
  interval_cases n <;> exact ⟨_, rfl, rfl⟩

/-! ## One item -/

/-- An item loaded is its value in range, and otherwise the default. -/
theorem loadItem_value {α : Type} (check : Nat → Option α) (dflt : α) (stored : Option Nat) :
    (loadItem check dflt stored).1 = (stored.bind check).getD dflt := by
  unfold loadItem
  cases stored with
  | none => rfl
  | some n => simp only [Option.bind_some]; cases check n <;> rfl

/-- An item is out of range where the store holds a value that the check refuses. -/
theorem loadItem_bad {α : Type} {check : Nat → Option α} {dflt : α} {n : Nat} (h : check n = none) :
    (loadItem check dflt (some n)).2 = true := by
  simp only [loadItem, h]

/-! ## The Event Set while items are loaded -/

/-- The warnings of a list of items, the last of them first. -/
def warnAll (bad : List Bool) (s : State) : State := bad.foldr warnIf s

/-- A warning changes the Event Set alone. -/
theorem warnIf_frame (b : Bool) (s : State) : warnIf b s = { s with events := (warnIf b s).events } := by
  cases b <;> rfl

theorem warnAll_frame (bad : List Bool) (s : State) : warnAll bad s = { s with events := (warnAll bad s).events } := by
  induction bad with
  | nil => rfl
  | cons b bad ih =>
    rw [warnAll, List.foldr_cons, warnIf_frame, ← warnAll, ih]

theorem warnIf_rises (b : Bool) (s : State) : EventsRise s (warnIf b s) := by
  cases b with
  | false => exact .refl s
  | true => exact latch_rises _ s

theorem warnAll_rises (bad : List Bool) (s : State) : EventsRise s (warnAll bad s) := by
  induction bad with
  | nil => exact .refl s
  | cons b bad ih => exact ih.trans (warnIf_rises b _)

/-- One item out of range latches Equipment Warning, whatever the others are (R158, R186). -/
theorem warnAll_latched {bad : List Bool} {s : State} (h : true ∈ bad) (hl : s.events.length = 25) :
    (flagsOf 23 (warnAll bad s).events).latched = true := by
  induction bad with
  | nil => cases h
  | cons b bad ih =>
    rcases List.mem_cons.1 h with rfl | h
    · exact latched_after (e := .equipmentWarning) (.refl _) ((warnAll_rises bad s).1.trans hl)
    · exact (warnIf_rises b _).2 23 (ih h)

/-- A latch leaves the mask flags (R175, R176). -/
theorem latch_masks (e : Event) (s : State) : (latch e s).events.map (fun f => f.masked) = s.events.map (fun f => f.masked) := by
  apply List.ext_getElem?
  intro i
  have hmask : ∀ f : EventFlags, f.latch.masked = f.masked := fun f => by
    unfold EventFlags.latch
    split <;> rfl
  rw [latch_events, changeEvent, List.getElem?_map, List.getElem?_map, List.getElem?_modify]
  cases s.events[i]? with
  | none => rfl
  | some f => by_cases hi : e.number - 1 = i <;> simp [hi, hmask]

/-- A stored mask gives each event its flag, and no mask leaves none masked (R168, R185). -/
theorem withMask_masks (m : Option (List Bool)) (es : List EventFlags) :
    (withMask m es).map (fun f => f.masked) = match m with
      | some bs => (List.range es.length).map (fun i => bs.getD i false)
      | none => es.map (fun _ => false) := by
  cases m with
  | none => exact List.map_map
  | some bs =>
    apply List.ext_getElem?
    intro i
    by_cases hi : i < es.length <;> simp [withMask, hi]

/-- A stored mask leaves the latches (log 9). -/
theorem withMask_latched (n : Nat) (m : Option (List Bool)) (es : List EventFlags) :
    (flagsOf n (withMask m es)).latched = (flagsOf n es).latched := by
  unfold flagsOf
  rw [List.getD_eq_getElem?_getD, List.getD_eq_getElem?_getD]
  cases m with
  | none => cases h : es[n - 1]? <;> simp [withMask, h]
  | some bs => cases h : es[n - 1]? <;> simp [withMask, h]

end Sys2Proof.Machine
end

section
/-! SUPPORT. Loading the settings and the retained items (R57, R150, R158, R167, R182, R185, R186). -/

namespace Sys2Proof.Machine

/-- Which settings the store holds out of range. -/
def badSettings (s : State) : List Bool :=
  let d := s.pst.stored
  [(loadItem limitOf 32 d.readAheadLimit).2, (loadItem switchOf true d.compression).2,
    (loadItem switchOf s.jumpers.autoThread d.autoThread).2, (loadItem policyOf .grant d.libraryPolicy).2,
    (loadItem policyOf .ask d.linkPolicy).2, (loadItem payloadOf (jumperPayload s.jumpers) d.linkPayload).2,
    (loadItem overrideOf none d.addressOverride).2]

/-- Which retained items the store holds out of range. -/
def badRetained (s : State) : List Bool :=
  [(loadItem hciOf 0 s.pst.stored.hci).2, (loadItem levelFromCode .normal s.pst.stored.level).2]

theorem loadSettings_events (s : State) :
    (loadSettings s).events = withMask s.pst.stored.eventMask (warnAll (badSettings s) s).events := rfl

/-- A setting out of range latches Equipment Warning (R186). -/
theorem loadSettings_warns {s : State} (h : true ∈ badSettings s) (hl : s.events.length = 25) :
    (flagsOf 23 (loadSettings s).events).latched = true := by
  rw [loadSettings_events, withMask_latched]
  exact warnAll_latched h hl

/-- Loading the settings sends nothing, and reaches neither what the store holds nor the head condition. -/
theorem loadSettings_frame (s : State) : (loadSettings s).out = s.out ∧ (loadSettings s).pst.stored = s.pst.stored
    ∧ (loadSettings s).hcm = s.hcm := by
  have h := warnAll_frame (badSettings s) s
  have hout : (loadSettings s).out = (warnAll (badSettings s) s).out := rfl
  have hstored : (loadSettings s).pst.stored = (warnAll (badSettings s) s).pst.stored := rfl
  have hhcm : (loadSettings s).hcm = (warnAll (badSettings s) s).hcm := rfl
  rw [hout, hstored, hhcm, h]
  exact ⟨rfl, rfl, rfl⟩

/-- The address is the override in range, and otherwise that of the jumpers (R182, R185). -/
theorem loadSettings_address (s : State) : (loadSettings s).lbp.address =
    ((s.pst.stored.addressOverride.bind overrideOf).getD none).getD s.jumpers.address := by
  have h : (loadSettings s).lbp.address =
    (loadItem overrideOf none s.pst.stored.addressOverride).1.getD (warnAll (badSettings s) s).jumpers.address := rfl
  rw [h, warnAll_frame, loadItem_value]

theorem loadSettings_masks (s : State) : (loadSettings s).events.map (fun f => f.masked) = match s.pst.stored.eventMask with
    | some m => (List.range s.events.length).map (fun i => m.getD i false)
    | none => s.events.map (fun _ => false) := by
  rw [loadSettings_events, withMask_masks, (warnAll_rises (badSettings s) s).1]
  cases s.pst.stored.eventMask with
  | some m => rfl
  | none => simp [(warnAll_rises (badSettings s) s).1]

/-- The level loaded: the stored one, or a higher one that the HCI and the Motion Seconds give (R158). -/
def loadedLevel (s : State) : Level :=
  higherLevel (loadItem levelFromCode .normal s.pst.stored.level).1
    (levelOf (loadItem hciOf 0 s.pst.stored.hci).1 (s.pst.stored.motionSeconds.getD 0))

theorem higherLevel_rank (a b : Level) : a.rank ≤ (higherLevel a b).rank ∧ b.rank ≤ (higherLevel a b).rank := by
  unfold higherLevel
  split <;> omega

/-- The head condition that loading leaves (R153 to R158). -/
theorem loadRetained_frame (s : State) :
    (loadRetained s).hcm = { hci := (loadItem hciOf 0 s.pst.stored.hci).1, level := loadedLevel s
                             motionSeconds := s.pst.stored.motionSeconds.getD 0, cleaningCall := loadedLevel s != .normal
                             samples := 0 }
      ∧ (loadRetained s).moc.conditionCap = levelCap (loadedLevel s)
      ∧ (loadRetained s).frg.levelEventDue = (loadedLevel s != .normal)
      ∧ (loadRetained s).events = (warnAll (badRetained s) s).events := by
  unfold loadRetained setConditionCap
  dsimp only
  simp only [applyCap_frame]
  exact ⟨rfl, rfl, rfl, rfl⟩

/-- Settles O10: each loaded item is the value of `loadItem`, and a value that its check refuses stands in the list of the warnings. -/
theorem storedItemsAreLoadedOrDefaulted : Obligations.StoredItemsAreLoadedOrDefaulted := by
  intro s
  dsimp only
  obtain ⟨hout, hstored, hhcm⟩ := loadSettings_frame s
  obtain ⟨hret, hcap, hdue, hevents⟩ := loadRetained_frame s
  obtain ⟨hgiven, hkept⟩ : _ ∧ _ := (higherLevel_rank (loadItem levelFromCode .normal s.pst.stored.level).1
    (levelOf (loadItem hciOf 0 s.pst.stored.hci).1 (s.pst.stored.motionSeconds.getD 0)))
  rw [hret, hcap, hdue, hevents]
  refine ⟨?limit, ?compression, ?auto, ?library, ?link, ?payload, ?address, loadSettings_masks s, ?badLimit, ?bad, hout, hstored,
    hhcm, ?hci, rfl, hkept, ?level, level_calls _, rfl, rfl, level_calls _, ?badHci, ?badLevel⟩
  case limit =>
    refine (loadItem_value limitOf 32 s.pst.stored.readAheadLimit).trans ?_
    cases s.pst.stored.readAheadLimit with
    | none => rfl
    | some n => by_cases h : n ≤ 96 <;> simp [limitOf, h]
  case compression =>
    have h : (loadSettings s).cpe.switchOn = _ := loadItem_value switchOf true s.pst.stored.compression
    rw [h]
    cases s.pst.stored.compression with
    | none => simp
    | some n => rcases n with _ | _ | n <;> simp [switchOf]
  case auto =>
    refine (loadItem_value switchOf s.jumpers.autoThread s.pst.stored.autoThread).trans ?_
    cases s.pst.stored.autoThread with
    | none => rfl
    | some n => rcases n with _ | _ | n <;> simp [switchOf]
  case library =>
    refine (loadItem_value policyOf .grant s.pst.stored.libraryPolicy).trans ?_
    cases s.pst.stored.libraryPolicy with
    | none => rfl
    | some n => rcases n with _ | _ | _ | _ | n <;> simp [policyOf]
  case link =>
    refine (loadItem_value policyOf .ask s.pst.stored.linkPolicy).trans ?_
    cases s.pst.stored.linkPolicy with
    | none => rfl
    | some n => rcases n with _ | _ | _ | _ | n <;> simp [policyOf]
  case payload =>
    refine (loadItem_value payloadOf (jumperPayload s.jumpers) s.pst.stored.linkPayload).trans ?_
    cases s.pst.stored.linkPayload with
    | none => rfl
    | some n => by_cases h : 4096 ≤ n ∧ n ≤ 65536 <;> simp [payloadOf, h, jumperPayload]
  case address =>
    rw [loadSettings_address]
    cases s.pst.stored.addressOverride with
    | none => rfl
    | some n =>
      by_cases h : n ≤ 15
      · simp [overrideOf, h]
      · by_cases h' : n = 16 <;> simp [overrideOf, h, h']
  case badLimit =>
    intro n hn hbad hl
    exact loadSettings_warns (by simp [badSettings, hn, loadItem_bad (limitOf_eq_none.2 hbad)]) hl
  case bad =>
    refine fun hl => ⟨fun n hn hbad => ?_, fun n hn hbad => ?_, fun n hn hbad => ?_, fun n hn hbad => ?_, fun n hn hbad => ?_,
      fun n hn hbad => ?_⟩ <;> refine loadSettings_warns ?_ hl
    · simp [badSettings, hn, loadItem_bad (policyOf_eq_none.2 hbad)]
    · simp [badSettings, hn, loadItem_bad (policyOf_eq_none.2 hbad)]
    · simp [badSettings, hn, loadItem_bad (switchOf_eq_none.2 hbad)]
    · simp [badSettings, hn, loadItem_bad (switchOf_eq_none.2 hbad)]
    · simp [badSettings, hn, loadItem_bad (payloadOf_eq_none.2 hbad)]
    · simp [badSettings, hn, loadItem_bad (overrideOf_eq_none.2 hbad)]
  case hci =>
    refine (loadItem_value hciOf 0 s.pst.stored.hci).trans ?_
    cases s.pst.stored.hci with
    | none => rfl
    | some n => by_cases h : n ≤ 1000 <;> simp [hciOf, h]
  case level =>
    intro n hn hle
    obtain ⟨l, hl, rfl⟩ := levelFromCode_rank hle
    have hvalue : (loadItem levelFromCode .normal s.pst.stored.level).1 = l := by rw [loadItem_value, hn, Option.bind_some, hl]; rfl
    rw [hvalue] at hgiven
    unfold loadedLevel
    rwa [hvalue]
  case badHci =>
    intro n hn hbad hl
    exact warnAll_latched (by simp [badRetained, hn, loadItem_bad (hciOf_eq_none.2 hbad)]) hl
  case badLevel =>
    intro n hn hbad hl
    exact warnAll_latched (by simp [badRetained, hn, loadItem_bad (levelFromCode_eq_none.2 hbad)]) hl

end Sys2Proof.Machine
end

section
/-! SUPPORT. How Set Setting is answered (R57, R170, R185). -/

namespace Sys2Proof.Machine

variable {tag : Tag} {name : SettingName} {v n : Nat} {s x : State}

/-- A setting taken leaves the Data Link Port (R185). -/
theorem applySetting_dlp (h : applySetting name v s = some (n, x)) : x.dlp = s.dlp := by
  cases name with
  | readAheadLimit =>
    obtain ⟨-, rfl⟩ := Prod.mk.inj (Option.some.inj h)
    rfl
  | eventMask =>
    obtain ⟨-, h⟩ := Option.ite_none_right_eq_some.1 h
    obtain ⟨-, rfl⟩ := Prod.mk.inj (Option.some.inj h)
    rfl
  | compression | autoThread | linkPolicy | linkPayloadDefault | driveAddressOverride =>
    simp only [applySetting, Option.map_eq_some_iff, Prod.mk.injEq] at h
    obtain ⟨-, -, -, rfl⟩ := h
    rfl
  | libraryPolicy | unknown => cases h

/-- A value taken is answered GOOD with what was set. -/
theorem setSetting_good (ho : Open tag s) (h : applySetting name v (heard s) = some (n, x)) :
    setSetting tag name v (heard s) = emit (.reply tag ⟨.good, .value n⟩) x := by
  unfold setSetting
  rw [h]
  exact reply_up ((congrArg Dlp.link (applySetting_dlp h)).trans ho.1)

/-- A value or a name refused is answered Bad Value, and nothing changes. -/
theorem setSetting_refused (ho : Open tag s) (h : applySetting name v (heard s) = none) :
    setSetting tag name v (heard s) = replied tag (senseReply .badValue) s := by
  unfold setSetting
  rw [h]
  exact reply_up ho.1

/-- The Read-Ahead Limit acts at once, so the blocks settle (R57). -/
theorem exec_setLimit (ho : Open tag s) :
    exec (.setSetting tag .readAheadLimit v) s = .next (finish (setSetting tag .readAheadLimit v (heard s))) := by
  change Host.Outcome.next (finish (frameIn (commandIn tag notServed (setSetting tag .readAheadLimit v)) s)) = _
  rw [frameIn_up ho.1, commandIn_open ho]

/-- Another setting is an immediate command. -/
theorem exec_setSetting (ho : Open tag s) (hn : name ≠ .readAheadLimit) :
    exec (.setSetting tag name v) s = .next (sendNotices (setSetting tag name v (heard s))) := by
  rw [← immediate_open ho]
  cases name with
  | readAheadLimit => exact absurd rfl hn
  | _ => rfl

/-- A setting taken, from the value's range to what is sent. -/
theorem exec_setSetting_good (ho : Open tag s) (hn : name ≠ .readAheadLimit)
    (h : applySetting name v (heard s) = some (n, x)) :
    exec (.setSetting tag name v) s = .next (sendNotices (emit (.reply tag ⟨.good, .value n⟩) x)) := by
  rw [exec_setSetting ho hn, setSetting_good ho h]

theorem exec_setSetting_refused (ho : Open tag s) (hn : name ≠ .readAheadLimit) (h : applySetting name v (heard s) = none) :
    exec (.setSetting tag name v) s = .next (sendNotices (replied tag (senseReply .badValue) s)) := by
  rw [exec_setSetting ho hn, setSetting_refused ho h]

/-- An override in range, 16 for none (log 30). -/
theorem overrideOf_le (h : v ≤ 16) : overrideOf v = some (if v = 16 then none else some v) := by
  unfold overrideOf
  by_cases h16 : v = 16
  · simp [h16]
  · rw [if_pos (show v ≤ 15 by omega), if_neg h16]

/-- Bit k of a mask value is the flag wanted of event k + 1 (R176; log 30). -/
theorem flagsOf_withMaskValue {k : Nat} {es : List EventFlags} (hk : k < es.length) :
    flagsOf (k + 1) (withMaskValue v es) = (flagsOf (k + 1) es).toMask (v.testBit k) := by
  simp [flagsOf, withMaskValue, hk]

theorem EventFlags.toMask_masked (w : Bool) (f : EventFlags) : (f.toMask w).masked = w := by
  unfold EventFlags.toMask
  split
  · exact Eq.symm ‹_›
  · cases w <;> rfl

theorem EventFlags.toMask_latched (w : Bool) (f : EventFlags) : (f.toMask w).latched = f.latched := by
  unfold EventFlags.toMask
  repeat' split
  all_goals rfl

/-- Settles O24: each range is that of `applySetting`, and what it refuses is answered Bad Value. -/
theorem settingsTakeTheirValues : Obligations.SettingsTakeTheirValues := by
  intro tag v s ho
  refine ⟨?limit, fun b hb => ⟨?compression, ?auto⟩, fun p hp => ?link, fun hlow hhigh => ?payload, fun hv => ?override,
    fun hv => ?mask, fun k hk => ?bits, fun n hn => ?refused⟩
  case limit =>
    rw [exec_setLimit ho, setSetting_good ho rfl]
    rfl
  case compression =>
    exact exec_setSetting_good ho (by decide) (by rw [applySetting, hb, switchOf_code]; rfl)
  case auto =>
    exact exec_setSetting_good ho (by decide) (by rw [applySetting, hb, switchOf_code]; rfl)
  case link =>
    exact exec_setSetting_good ho (by decide) (by rw [applySetting, hp, policyOf_code]; rfl)
  case payload =>
    exact exec_setSetting_good ho (by decide) (by rw [applySetting, payloadOf, if_pos ⟨hlow, hhigh⟩]; rfl)
  case override =>
    exact exec_setSetting_good ho (by decide) (by rw [applySetting, overrideOf_le hv]; rfl)
  case mask =>
    exact exec_setSetting_good ho (by decide) (by rw [applySetting, if_pos hv]; rfl)
  case bits =>
    rw [flagsOf_withMaskValue hk]
    exact ⟨EventFlags.toMask_masked _ _, EventFlags.toMask_latched _ _⟩
  case refused =>
    have refuse : n ≠ .readAheadLimit → applySetting n v (heard s) = none →
        exec (.setSetting tag n v) s = .next (sendNotices (replied tag (senseReply .badValue) s)) :=
      exec_setSetting_refused ho
    rcases hn with ⟨hv, rfl⟩ | rfl | rfl | ⟨hv, rfl | rfl⟩ | ⟨hv, rfl⟩ | ⟨hv, rfl⟩ | ⟨hv, rfl⟩
    · exact refuse (by decide) (if_neg (by omega))
    · exact refuse (by decide) rfl
    · exact refuse (by decide) rfl
    · exact refuse (by decide) (by rw [applySetting, switchOf_eq_none.2 hv]; rfl)
    · exact refuse (by decide) (by rw [applySetting, switchOf_eq_none.2 hv]; rfl)
    · exact refuse (by decide) (by rw [applySetting, policyOf_eq_none.2 hv]; rfl)
    · exact refuse (by decide) (by rw [applySetting, payloadOf_eq_none.2 hv]; rfl)
    · exact refuse (by decide) (by rw [applySetting, overrideOf_eq_none.2 hv]; rfl)

end Sys2Proof.Machine
end

section
/-! SUPPORT. The Motion Controller and the timers a microsecond later (R52, R53, R108, R110, R116, R118, R119). -/

namespace Sys2Proof.Machine

variable {s : State}

theorem countIf_eq {b : Bool} {p : Prop} [Decidable p] (h : b = true ↔ p) (n : Nat) : countIf b n = if p then n + 1 else n := by
  unfold countIf
  by_cases hp : p
  · rw [if_pos hp, if_pos (h.2 hp)]
  · rw [if_neg hp, if_neg (fun hb => hp (h.1 hb))]

/-- The timers of the Motion Controller after a microsecond, before the LPOS moves. -/
def counted (s : State) : State :=
  { s with
    moc.motionTime := countIf s.moc.motion.moving s.moc.motionTime
    moc.restTimer := countIf (s.moc.motion == .stopped) s.moc.restTimer
    moc.watch := countIf (servoArmed s) s.moc.watch
    moc.phaseTime := countIf s.moc.operation.isSome s.moc.phaseTime }

theorem tick_moc (s : State) : (tick s).moc = (settleSeek (interpolate (counted s))).moc := rfl

/-! ## The LPOS between marks (R118) -/

/-- Where marks are read the LPOS moves by the step's speed, and the rest is carried. -/
theorem interpolate_moves (h : s.moc.motion = .streaming ∨ s.moc.motion = .seeking ∨ s.moc.motion = .ramping) :
    (interpolate s).moc = { s.moc with
      drift := driftAfter s % 10000
      lpos := s.moc.lpos.map fun l =>
        if s.moc.towardHigh then min 98000000 (l + driftAfter s / 10000) else l - driftAfter s / 10000 } := by
  unfold interpolate
  rw [if_pos h]

/-- Elsewhere it stands. -/
theorem interpolate_stands (h : ¬ (s.moc.motion = .streaming ∨ s.moc.motion = .seeking ∨ s.moc.motion = .ramping)) :
    interpolate s = s := if_neg h

/-- The LPOS and what is carried are all that it changes. -/
theorem interpolate_frame (s : State) : (interpolate s).moc.motion = s.moc.motion
    ∧ (interpolate s).moc.operation = s.moc.operation ∧ (interpolate s).moc.motionTime = s.moc.motionTime
    ∧ (interpolate s).moc.restTimer = s.moc.restTimer ∧ (interpolate s).moc.phaseTime = s.moc.phaseTime := by
  unfold interpolate
  split <;> exact ⟨rfl, rfl, rfl, rfl, rfl⟩

/-! ## The ramp down of a seek and of a recovery's run (R110, R116, R184) -/

/-- What the ramp down changes is no part of these. -/
theorem settleSeek_frame (s : State) : (settleSeek s).moc.operation = s.moc.operation
    ∧ (settleSeek s).moc.motionTime = s.moc.motionTime ∧ (settleSeek s).moc.restTimer = s.moc.restTimer
    ∧ (settleSeek s).moc.lpos = s.moc.lpos ∧ (settleSeek s).moc.drift = s.moc.drift := by
  unfold settleSeek
  split <;> exact ⟨rfl, rfl, rfl, rfl, rfl⟩

/-- It begins in SEEKING, or in the STREAMING of the run to BOT, alone. -/
theorem seekNears_motion (h : seekNears s = true) :
    s.moc.motion = .seeking ∨ (s.moc.motion = .streaming ∧ runningPhase s = some .slowRun) := by
  simp only [seekNears, Bool.or_eq_true, Bool.and_eq_true, beq_iff_eq] at h
  exact h.imp (fun h => h.1.2) (fun h => ⟨h.1.2, h.1.1⟩)

theorem settleSeek_stands (h : seekNears s = false) : settleSeek s = s := by
  unfold settleSeek
  rw [h]
  rfl

/-- The tape stands within a distance of the aim, either side of it. -/
theorem withinReach_iff {d : Nat} {op : Operation} {p : Place} (hop : s.moc.operation = some op) (haim : op.aim = some p) :
    withinReach d s = true ↔ ∃ l, s.moc.lpos = some l ∧ l ≤ p.lpos + d ∧ p.lpos ≤ l + d := by
  unfold withinReach
  rw [hop, Option.bind_some, haim]
  cases s.moc.lpos with
  | none => simp
  | some l =>
    simp only [decide_eq_true_eq, Option.some.injEq, exists_eq_left']
    split <;> omega

/-- The run to BOT in STREAMING begins its ramp down exactly where its aim is within reach (R184; log 22). -/
theorem settleSeek_slowRun {op : Operation} {p : Place} {rest : List Phase} (hop : s.moc.operation = some op)
    (haim : op.aim = some p) (hplan : op.plan = .slowRun :: rest) (hm : s.moc.motion = .streaming) :
    ((settleSeek s).moc.motion = .ramping ↔
        ∃ l, s.moc.lpos = some l ∧ l ≤ p.lpos + Config.slowRunReach ∧ p.lpos ≤ l + Config.slowRunReach)
      ∧ ((settleSeek s).moc.motion ≠ .ramping → (settleSeek s).moc.motion = .streaming) := by
  have hphase : runningPhase s = some .slowRun := by
    unfold runningPhase
    rw [hop, Option.bind_some, hplan]
    rfl
  have hnears : seekNears s = withinReach Config.slowRunReach s := by simp [seekNears, hphase, hm]
  rw [← withinReach_iff hop haim, ← hnears]
  unfold settleSeek
  cases seekNears s <;> simp [hm]

/-! ## The microsecond -/

/-- Where the motion is neither a seek nor the run to BOT of a recovery, the microsecond moves the LPOS alone. -/
theorem tick_noRampDown (hs : s.moc.motion ≠ .seeking) (h : s.moc.motion = .streaming → runningPhase s ≠ some .slowRun) :
    (tick s).moc = (interpolate (counted s)).moc := by
  obtain ⟨hmotion, hop, -⟩ := interpolate_frame (counted s)
  have hphase : runningPhase (interpolate (counted s)) = runningPhase s := congrArg (·.bind fun op => op.plan.head?) hop
  rw [tick_moc, settleSeek_stands]
  refine Bool.eq_false_iff.2 fun hn => ?_
  rcases seekNears_motion hn with hm | ⟨hm, hp⟩
  · exact hs (hmotion.symm.trans hm)
  · exact h (hmotion.symm.trans hm) (hphase.symm.trans hp)

/-- The time of a phase rises while an operation runs (R110). -/
theorem tick_phaseTime (hs : s.moc.motion ≠ .seeking) (h : runningPhase s ≠ some .slowRun) :
    (tick s).moc.phaseTime = if s.moc.operation.isSome then s.moc.phaseTime + 1 else s.moc.phaseTime := by
  obtain ⟨-, -, -, -, hphase⟩ := interpolate_frame (counted s)
  rw [tick_noRampDown hs fun _ => h, hphase]
  rfl

/-- The LPOS moves in STREAMING and in RAMPING (R118; log 22). -/
theorem tick_lpos (h : s.moc.motion = .streaming ∨ s.moc.motion = .ramping) :
    (tick s).moc.drift = driftAfter s % 10000
      ∧ (tick s).moc.lpos = s.moc.lpos.map fun l =>
          if s.moc.towardHigh then min 98000000 (l + driftAfter s / 10000) else l - driftAfter s / 10000 := by
  obtain ⟨-, -, -, hlpos, hdrift⟩ := settleSeek_frame (interpolate (counted s))
  have hmoves : (counted s).moc.motion = .streaming ∨ (counted s).moc.motion = .seeking ∨ (counted s).moc.motion = .ramping :=
    h.imp_right .inr
  rw [tick_moc, hlpos, hdrift, interpolate_moves hmoves]
  exact ⟨rfl, rfl⟩

/-- A Read Records in hand: it delivers, or waits on its flush (R53). -/
theorem readInHand_iff (s : State) : readInHand s = true ↔ s.dlp.run.phase = .reading ∨
    s.dlp.run.phase = .waitFlush ∧ ∃ tag l n, s.dlp.queue.head? = some ⟨tag, .readRecords l n⟩ := by
  unfold readInHand readExecuting
  rw [Bool.or_eq_true, beq_iff_eq]
  refine or_congr_right ?_
  split
  · rename_i tag l n hphase hhead
    exact iff_of_true rfl ⟨hphase, tag, l, n, hhead⟩
  · rename_i hnot
    exact iff_of_false Bool.false_ne_true fun ⟨hphase, tag, l, n, hhead⟩ => hnot tag l n hphase hhead

/-- Starved Time runs while a Read Records is in hand and no slot is READY or DRAINING (R53). -/
theorem starvedNow_iff (s : State) :
    starvedNow s = true ↔ readInHand s = true ∧ ∀ d ∈ s.dbf.readRing, d.state ≠ .ready ∧ d.state ≠ .draining := by
  simp [starvedNow]

/-- Held Time runs while the host has bytes to send and no credit to send them with (R52). -/
theorem heldNow_iff (s : State) : heldNow s = true ↔ receivesAny s = true ∧ s.dlp.creditsOut = 0 := by
  simp [heldNow]

/-- Settles O2: a step on an empty queue is `tick`, whose timers are counted above and whose tape moves as `interpolate` and
`settleSeek` give. -/
theorem idleStepIsOneMicrosecond : Obligations.IdleStepIsOneMicrosecond := by
  intro s hp
  obtain ⟨hmotion, hop, htime, hrest, -⟩ := interpolate_frame (counted s)
  obtain ⟨hop', htime', hrest', -⟩ := settleSeek_frame (interpolate (counted s))
  have hstep : step s = .next (tick s) := by
    unfold step
    rw [hp]
  refine ⟨tick s, hstep, rfl, countIf_eq beq_iff_eq _, countIf_eq (heldNow_iff s) _, htime'.trans htime,
    (hrest'.trans hrest).trans (countIf_eq beq_iff_eq _), rfl, hp, rfl, rfl, rfl, rfl, rfl, rfl, rfl, rfl, rfl, rfl, rfl, rfl, rfl,
    rfl, rfl, rfl, rfl, hop'.trans hop, fun hread hslots => ?starves, fun hnot => ?fed, fun h1 h2 h3 => ?stands,
    fun hmoves => ⟨fun hphase => ?runs, tick_lpos hmoves⟩, fun w p rest r hrun hm => ?slowRun, tick_phaseTime, rfl, rfl, rfl⟩
  case starves => exact (countIf_eq (starvedNow_iff s) _).trans (if_pos ⟨(readInHand_iff s).2 hread, hslots⟩)
  case fed =>
    refine (countIf_eq (starvedNow_iff s) _).trans (if_neg fun ⟨hread, hslots⟩ => ?_)
    rcases hnot with ⟨h1, h2⟩ | ⟨d, hd, hready⟩
    · exact ((readInHand_iff s).1 hread).elim h1 fun h => h2 h.1
    · exact hready.elim (hslots d hd).1 (hslots d hd).2
  case stands =>
    have hstill : ¬ ((counted s).moc.motion = .streaming ∨ (counted s).moc.motion = .seeking
        ∨ (counted s).moc.motion = .ramping) := fun h => h.elim h1 fun h => h.elim h2 h3
    rw [tick_noRampDown h2 fun h => absurd h h1, interpolate_stands hstill]
    exact ⟨rfl, rfl⟩
  case runs =>
    have hs : s.moc.motion ≠ .seeking := by rcases hmoves with h | h <;> rw [h] <;> decide
    rw [tick_noRampDown hs fun _ => hphase, hmotion]
    rfl
  case slowRun =>
    obtain ⟨-, -, -, hlpos, -⟩ := settleSeek_frame (interpolate (counted s))
    rw [tick_moc, hlpos]
    exact settleSeek_slowRun (op := ⟨w, some p, .slowRun :: rest, r⟩) (hop.trans hrun) rfl rfl (hmotion.trans hm)

end Sys2Proof.Machine
end

section
/-! SUPPORT. How CREDIT and DATA-OUT are taken on a link that is UP, and what a payload makes of the record at the head (R50, R51, R165,
R169). -/

namespace Sys2Proof.Machine

variable {tag : Tag} {p : List Byte} {s : State}

/-! ## Credits (R169) -/

theorem addCredit_fits {n : Nat} (h : s.dlp.receiveCredits + n ≤ 1024) :
    addCredit n s = { s with dlp.receiveCredits := s.dlp.receiveCredits + n } := if_neg (by omega)

theorem addCredit_exceeds {n : Nat} (h : 1024 < s.dlp.receiveCredits + n) :
    addCredit n s = linkError { s with dlp.receiveCredits := 1024 } := if_pos h

theorem exec_receiveCredit {n : BitVec 16} (h : s.dlp.link = .up) :
    exec (.receiveCredit n) s = .next (sendNotices (addCredit n.toNat (heard s))) := by
  change Host.Outcome.next (sendNotices (frameIn (addCredit n.toNat) s)) = _
  rw [frameIn_up h]

/-! ## A DATA-OUT taken or rejected (R51, R165) -/

theorem exec_dataOut (h : s.dlp.link = .up) (hne : 1 ≤ p.length) (hsize : p.length ≤ s.dlp.agreed) :
    exec (.dataOut tag p) s = .next (finish (takeDataOut tag p (heard s))) := by
  have hok : dataOutSizeOk p s = true := by simpa [dataOutSizeOk, h, hsize] using hne
  change execDataOut tag p s = _
  rw [execDataOut, if_pos hok, frameIn_up h]

theorem exec_dataOut_tooLarge (h : s.dlp.link = .up) (hsize : s.dlp.agreed < p.length) :
    exec (.dataOut tag p) s = .next (sendNotices (linkError (heard s))) := by
  have hbad : dataOutSizeOk p s = false := by simp [dataOutSizeOk, h, hsize]
  have hup : s.dlp.link ≠ .down := by rw [h]; decide
  change execDataOut tag p s = _
  rw [execDataOut, hbad, if_neg Bool.false_ne_true, rejectFrame, if_neg hup]
  rfl

theorem takeDataOut_noCredit (h : s.dlp.creditsOut = 0) : takeDataOut tag p s = linkError s := if_pos h

/-- The record at the head of those that a command has still to receive: no byte of it has come, and none of an earlier one waits in part
(R50, R80). -/
structure Receives (tag : Tag) (len : Nat) (rest : List Nat) (s : State) : Prop where
  head : ∃ u l qs, s.dlp.queue = ⟨tag, .writeRecords u l⟩ :: qs
  phase : s.dlp.run.phase = .receiving
  lengths : s.dlp.run.lengths = len :: rest
  got : s.dlp.run.got = 0
  heard : s.dlp.run.mute = false
  whole : s.cpe.intake.all (fun x => !x.partialOf tag) = true

variable {len : Nat} {rest : List Nat}

theorem Receives.bytesLeft (h : Receives tag len rest s) : bytesLeft s = len + rest.sum := by
  unfold Machine.bytesLeft
  rw [h.lengths, h.got]
  rfl

theorem Receives.receivesFor (h : Receives tag len rest s) (hlen : 1 ≤ len) : receivesFor tag s = true := by
  obtain ⟨u, l, qs, hq⟩ := h.head
  unfold Machine.receivesFor
  rw [hq, h.phase]
  simp only [h.bytesLeft, h.heard, beq_self_eq_true, Bool.true_and, Bool.not_false, Bool.and_true, decide_eq_true_eq]
  omega

theorem Receives.appendStands (h : Receives tag len rest s) : appendStands s = true := by
  unfold Machine.appendStands
  rw [h.phase]

/-- A payload that lies within the record is placed whole, with no Link Error (R50). -/
theorem placeDataOut_within (h : Receives tag len rest s) (hle : p.length ≤ len) :
    placeDataOut tag p s = receiveFrom true tag (rest.length + 1) p.length { s with
      dbf.staging := s.dbf.staging ++ [⟨tag, p⟩]
      dlp.linkBytes := s.dlp.linkBytes + p.length } := by
  have hn : min p.length (bytesLeft s) = p.length := by rw [h.bytesLeft]; omega
  unfold placeDataOut
  simp only [hn, if_neg (Nat.lt_irrefl _), List.take_length]
  change receiveFrom (appendStands s) tag s.dlp.run.lengths.length p.length _ = _
  rw [h.appendStands, h.lengths]
  rfl

/-- No bytes are left to enter. -/
theorem receiveFrom_zero (b : Bool) (tag : Tag) (fuel : Nat) (s : State) : receiveFrom b tag fuel 0 s = s := by
  cases fuel with
  | zero => rfl
  | succ fuel =>
    unfold receiveFrom
    split <;> rfl

/-- What changes only the record of a tag that waits in part leaves what waits where there is none. -/
theorem map_whole {F : Intake → Intake} {waiting : List Intake} (h : waiting.all (fun x => !x.partialOf tag) = true)
    (hF : ∀ x, x.partialOf tag = false → F x = x) : waiting.map F = waiting := by
  refine (List.map_congr_left fun x hx => hF x ?_).trans (List.map_id waiting)
  simpa using List.all_eq_true.1 h x hx

/-- The first bytes of a record join what waits for the engine; where they are the whole record, it is Accepted (R50, R80). -/
theorem receiveFrom_first {n fuel : Nat} (h : Receives tag len rest s) (h1 : 1 ≤ n) (hle : n ≤ len) :
    receiveFrom true tag (fuel + 1) n s =
      if n = len then { s with
        cpe.intake := s.cpe.intake ++ [.record tag len len 0 none true false]
        dlp.run.lengths := rest
        dlp.run.got := 0
        dlp.run.accepted := s.dlp.run.accepted + 1
        fmc.accepted := s.fmc.accepted + 1
        fmc.position := s.fmc.position + 1 }
      else { s with
        cpe.intake := s.cpe.intake ++ [.record tag len n 0 none false false]
        dlp.run.got := n } := by
  have hfit : min n len = n := by omega
  have hne : n ≠ 0 := by omega
  unfold receiveFrom
  rw [h.lengths]
  simp only [h.got, hne, if_false, if_true, Nat.sub_zero, hfit, Nat.zero_add, Bool.and_true, Nat.sub_self, receiveFrom_zero,
    List.map_append]
  rw [map_whole h.whole fun x hx => ?_]
  · by_cases hn : n = len
    · simp [hn, Nat.lt_of_lt_of_le h1 hle]
    · simp [hn, h.lengths, Nat.lt_of_lt_of_le h1 hle]
  · split
    · rename_i t l g p o
      refine if_neg fun ht => ?_
      simp [Intake.partialOf, ht.1] at hx
    · rfl

/-- A payload within the record at the head, taken with a credit. -/
theorem takeDataOut_within (h : Receives tag len rest s) (hc : 0 < s.dlp.creditsOut) (h1 : 1 ≤ p.length) (hle : p.length ≤ len) :
    takeDataOut tag p s = receiveFrom true tag (rest.length + 1) p.length { s with
      dlp.creditsOut := s.dlp.creditsOut - 1
      dbf.staging := s.dbf.staging ++ [⟨tag, p⟩]
      dlp.linkBytes := s.dlp.linkBytes + p.length } := by
  have h' : Receives tag len rest { s with dlp.creditsOut := s.dlp.creditsOut - 1 } :=
    ⟨h.head, h.phase, h.lengths, h.got, h.heard, h.whole⟩
  unfold takeDataOut
  rw [if_neg (Nat.ne_of_gt hc)]
  dsimp only
  rw [if_pos (h'.receivesFor (h1.trans hle)), placeDataOut_within h' hle]

/-- The same, as the record stands after it. -/
theorem takeDataOut_first (h : Receives tag len rest s) (hc : 0 < s.dlp.creditsOut) (h1 : 1 ≤ p.length) (hle : p.length ≤ len) :
    takeDataOut tag p s = if p.length = len then { s with
        dlp.creditsOut := s.dlp.creditsOut - 1
        dlp.linkBytes := s.dlp.linkBytes + p.length
        dlp.run.lengths := rest
        dlp.run.got := 0
        dlp.run.accepted := s.dlp.run.accepted + 1
        fmc.accepted := s.fmc.accepted + 1
        fmc.position := s.fmc.position + 1
        dbf.staging := s.dbf.staging ++ [⟨tag, p⟩]
        cpe.intake := s.cpe.intake ++ [.record tag len len 0 none true false] }
      else { s with
        dlp.creditsOut := s.dlp.creditsOut - 1
        dlp.linkBytes := s.dlp.linkBytes + p.length
        dlp.run.got := p.length
        dbf.staging := s.dbf.staging ++ [⟨tag, p⟩]
        cpe.intake := s.cpe.intake ++ [.record tag len p.length 0 none false false] } := by
  rw [takeDataOut_within h hc h1 hle]
  exact receiveFrom_first ⟨h.head, h.phase, h.lengths, h.got, h.heard, h.whole⟩ h1 hle

/-- Settles O35: a CREDIT is `addCredit`, and a DATA-OUT is rejected, discarded, or the first bytes of the record at the head. -/
theorem creditsAndDataOut : Obligations.CreditsAndDataOut := by
  refine ⟨fun n s hup => ⟨fun h => ?_, fun h => ?_⟩, fun tag p s hup hne hsize => ⟨fun h => ?_, ?_⟩, fun tag p s hup h => ?_⟩
  · rw [exec_receiveCredit hup, addCredit_fits (by exact h)]
    rfl
  · rw [exec_receiveCredit hup, addCredit_exceeds (by exact h)]
    rfl
  · rw [exec_dataOut hup hne hsize, takeDataOut_noCredit (by exact h)]
    rfl
  · intro u l rest len qs hc hq hphase hlengths hgot hmute hwhole
    have h : Receives tag len rest (heard s) := ⟨⟨u, l, qs, hq⟩, hphase, hlengths, hgot, hmute, hwhole⟩
    rw [exec_dataOut hup hne hsize]
    refine ⟨fun hpart => ?_, fun hlen => ?_⟩
    · rw [takeDataOut_first h hc hne hpart.le, if_neg hpart.ne]
      rfl
    · rw [takeDataOut_first h hc hne hlen.le, if_pos hlen]
      rfl
  · rw [exec_dataOut_tooLarge hup h]
    rfl

end Sys2Proof.Machine
end

section
/-! SUPPORT. How Space and Locate are taken, answered without the tape, and begin their seek or scan (R58, R98, R99, R102, R103, R105). -/

namespace Sys2Proof.Machine

variable {s : State} {tag : Tag} {c : MedCmd}

/-! ## The command is taken (R49, R99, R112) -/

/-- A Space or a Locate. -/
inductive Positions : MedCmd → Prop where
  | space (kind : SpaceKind) (dir : Dir) (n : Nat) (imm : Bool) : Positions (.space kind dir n imm)
  | locate (t : Nat) (imm : Bool) : Positions (.locate t imm)

theorem positions_begins (hc : Positions c) (h : HeadFree tag s) : mediumIn tag c s =
    .next (finish (tested (readTest c (taken tag c s)) (takeRead (readOwn c)) (taken tag c s))) := by
  obtain ⟨⟨-, -, hready⟩, -, -, hlib⟩ := id h
  rw [mediumIn_free h]
  cases hc with
  | space kind dir n imm =>
    simp [beginCommand, waitsForLibrary_none (s := taken tag (.space kind dir n imm) s) hlib, hready]
  | locate t imm => simp [beginCommand, waitsForLibrary_none (s := taken tag (.locate t imm) s) hlib, hready]

/-- Where no failure of the medium stands in the way, only the command's own fields are tested (R99). -/
structure Passes (tag : Tag) (s : State) : Prop where
  served : Served tag s
  endOfMedium : s.wch.endOfMediumStop = false
  suspended : suspendedSlots s = false

theorem positions_refused {r : Reason} (hc : Positions c) (h : Passes tag s) (hf : readFieldTest c = some r) :
    mediumIn tag c s = .next (finish (answered tag c (.sense (sense r)) s)) := by
  obtain ⟨⟨hfree, hthreaded, hreport⟩, hm, hs⟩ := h
  obtain ⟨⟨-, -, hready⟩, -⟩ := id hfree
  rw [positions_begins hc hfree, readTest_fields (by exact hm) (by exact hs), hf, Option.map_some,
    tested_refuses (by exact hready) (by exact hthreaded) (by exact hreport), endHead_taken hfree]

/-- With the write side empty the command goes on at once, the direction following the rings (R47, R49). -/
theorem positions_taken (hc : Positions c) (h : Passes tag s) (hempty : writeSideEmpty s = true) (hf : readFieldTest c = none) :
    mediumIn tag c s = .next (finish (readOwn c (settleDirection (taken tag c s)))) := by
  obtain ⟨⟨hfree, hthreaded, hreport⟩, hm, hs⟩ := h
  obtain ⟨⟨-, -, hready⟩, -⟩ := id hfree
  rw [positions_begins hc hfree, readTest_fields (by exact hm) (by exact hs), hf, Option.map_none,
    tested_takes (by exact hready) (by exact hthreaded) (by exact hreport), takeRead,
    if_neg (by exact ne_false_of_eq_true hempty)]

theorem readFieldTest_space {kind : SpaceKind} {dir : Dir} {n : Nat} (imm : Bool) (hn : n ≤ 16777215)
    (hdir : ¬(kind = .eod ∧ dir = .backward)) : readFieldTest (.space kind dir n imm) = none := by
  simp only [readFieldTest, if_neg (Nat.not_lt.2 hn), if_neg hdir]

theorem readFieldTest_locate {t : Nat} (imm : Bool) (ht : t ≤ 281474976710655) : readFieldTest (.locate t imm) = none :=
  if_neg (Nat.not_lt.2 ht)

/-- The tape is free for the work where the writer is not busy (R112). -/
theorem whenTapeFree_free (h : writerBusy s = false) : whenTapeFree c s = tapeWork c s := if_neg (by simp [h])

theorem whenTapeFree_busy (hc : needsTape c s = true) (h : writerBusy s = true) : whenTapeFree c s = setPhase .waitTape s :=
  if_pos ⟨hc, h⟩

/-- A Space needs no Rebuild pass where its count is 0, it goes by records or filemarks, or the directory is valid (R15). -/
theorem tapeWork_space {kind : SpaceKind} {dir : Dir} {n : Nat} {imm : Bool}
    (h : n = 0 ∨ kind ≠ .eod ∨ s.fmc.directoryValid = true) :
    tapeWork (.space kind dir n imm) s = spaceWork kind dir n s := by
  refine if_neg fun ⟨hkind, hn, hvalid⟩ => ?_
  rcases h with h | h | h
  · exact hn h
  · exact h hkind
  · rw [h] at hvalid
    cases hvalid

theorem tapeWork_locate {t : Nat} {imm : Bool} (h : s.fmc.directoryValid = true) : tapeWork (.locate t imm) s = locateWork t s :=
  if_pos h

/-! ## Answers that need no tape (R102, R105) -/

/-- The command at the head is answered on a link that is UP, and its tag ceases to be outstanding (R171, R173). -/
theorem endHead_replies {q : QEntry} {rest : List QEntry} (o : OutcomeBlock) (hq : s.dlp.queue = q :: rest)
    (ha : s.dlp.run.answered = false) (hm : s.dlp.run.mute = false) (hl : s.dlp.link = .up) : endHead o s = { s with
      out := s.out ++ [.reply q.tag ⟨o, resultsOf q.cmd (headFigure q.cmd s) s⟩]
      dlp.queue := rest
      dlp.run := {}
      dlp.tags := s.dlp.tags.filter (· ≠ q.tag) } := by
  unfold endHead finishHead
  rw [hq]
  dsimp only
  rw [if_neg (ne_true_of_eq_false ha), if_neg (ne_true_of_eq_false hm), reply_up hl, if_neg (by exact ne_true_of_eq_false hm)]
  rfl

/-- Where a command began does not show in how it ends. -/
theorem endHead_started {q : QEntry} {rest : List QEntry} (o : OutcomeBlock) (p : Nat) (hq : s.dlp.queue = q :: rest)
    (ha : s.dlp.run.answered = false) (hm : s.dlp.run.mute = false) (hl : s.dlp.link = .up) :
    endHead o { s with dlp.run.startPosition := p } = endHead o s := by
  rw [endHead_replies o hq ha hm hl, endHead_replies o (by exact hq) (by exact ha) (by exact hm) (by exact hl)]
  cases q.cmd <;> rfl

/-- The end of a command that was answered early keeps its outcome and the Position, and latches Operation Complete (R105). -/
theorem endHead_answered {q : QEntry} {rest : List QEntry} (o : OutcomeBlock) (hq : s.dlp.queue = q :: rest)
    (ha : s.dlp.run.answered = true) (hm : s.dlp.run.mute = false) : endHead o s = { s with
      dlp.queue := rest
      dlp.run := {}
      dlp.tags := s.dlp.tags.filter (· ≠ q.tag)
      rch.lastImmediate := some ⟨o, s.fmc.position⟩
      events := s.events.modify 8 EventFlags.latch } := by
  unfold endHead finishHead
  rw [hq]
  dsimp only
  rw [if_pos ha, if_neg (by exact ne_true_of_eq_false hm)]
  rfl

/-- A command just taken with Immediate is answered GOOD early, and stays at the head (R105). -/
theorem answerEarly_taken (h : Open tag s) (hrun : s.dlp.run = {}) : answerEarly (taken tag c s) = { taken tag c s with
    dlp.run.answered := true
    out := s.out ++ [.reply tag ⟨.good, .position s.fmc.position⟩] } := by
  have hmute : (taken tag c s).dlp.run.mute = false := congrArg Run.mute hrun
  have hup : (taken tag c s).dlp.link = .up := h.1
  have hq : (taken tag c s).dlp.queue = [⟨tag, c⟩] := rfl
  unfold answerEarly
  rw [hq, hmute]
  dsimp only
  rw [if_neg Bool.false_ne_true, reply_up hup]
  rfl

/-- With no count to pass, or none that can be passed, a Space is answered at once (R102; log 31). -/
theorem spaceWork_none (kind : SpaceKind) (dir : Dir) (s : State) :
    spaceWork kind dir 0 s = endHead .good { s with dlp.run.startPosition := s.fmc.position } := rfl

theorem spaceWork_atStart {kind : SpaceKind} {n : Nat} (hk : kind ≠ .eod) (hn : 0 < n) (hp : s.fmc.position = 0) :
    spaceWork kind .backward n s =
      endHead (.sense { sense .beginning with info := some n }) { s with dlp.run.startPosition := s.fmc.position } := by
  unfold spaceWork
  rw [if_neg (Nat.ne_of_gt hn), if_pos ⟨hk, rfl, by exact hp⟩]
  rfl

/-! ## The seek and the scan (R97, R98, R103, R112, R116) -/

/-- A request begins at once where the tape stands STOPPED with no operation in progress (R112). -/
theorem request_stopped (r : MotionReq) (hm : s.moc.motion = .stopped) (hop : s.moc.operation = none) :
    request r s = enterPhase ⟨r.work, some r.aim, planFor r s, false⟩ s := by
  have hcan : canMove s = true := by simp [canMove, hm]
  have hrest : s.moc.motion ≠ .resting := by simp [hm]
  unfold request
  rw [hcan, hop]
  simp [beginRequest, hrest]

/-- The EOD place is sought (R103). -/
theorem seekEod_seeks (c : Scan) (hm : s.moc.motion = .stopped) (hop : s.moc.operation = none) :
    (seekEod c s).moc.operation = some ⟨.toEod, some ⟨s.fmc.eod.wrap, s.fmc.eod.lpos⟩, [.seek], false⟩ := by
  have h := request_stopped (s := { s with rch.scan := some { c with last := none }, rch.duty := .idle, dlp.run.phase := .moving })
    ⟨.seek, .toEod, s.fmc.eod.place, none⟩ hm hop
  exact congrArg (fun t => t.moc.operation) h

/-- What the seek leaves. -/
theorem seekEod_frame (c : Scan) (s : State) : (seekEod c s).fmc = s.fmc ∧ (seekEod c s).out = s.out
    ∧ (seekEod c s).dlp = { s.dlp with run := { s.dlp.run with phase := .moving } }
    ∧ (seekEod c s).rch.lastImmediate = s.rch.lastImmediate := by
  have h : MovesTapeOnly _ (seekEod c s) := request_frame
    { s with rch.scan := some { c with last := none }, rch.duty := .idle, dlp.run.phase := .moving } _
  simp only [MovesTapeOnly] at h
  obtain ⟨-, hout, -, -, hdlp, -, -, -, -, hfmc, -, hrch, -⟩ := h
  exact ⟨hfmc, hout, hdlp, by rw [hrch]⟩

/-- A header scan with a goal has begun, on a tape that was STOPPED, and reaches neither the host nor Format Control (R97). -/
structure ScanBegun (g : ScanGoal) (s t : State) : Prop where
  duty : t.rch.duty = .scan
  goal : t.rch.scan.map (fun c => c.goal) = some g
  work : t.moc.operation.map (fun op => op.work) = some .scanning
  fmc : t.fmc = s.fmc
  out : t.out = s.out
  dlp : t.dlp = s.dlp

/-- The first phase of a start to stream begins, whichever it is (R113). -/
theorem startStream_work (w : Work) (p : Place) (k : Option Nat) (hm : s.moc.motion = .stopped) (hop : s.moc.operation = none) :
    (startStream w p k s).moc.operation.map (fun op => op.work) = some w := by
  unfold startStream
  rw [request_stopped _ hm hop]
  have hplan : planFor ⟨.stream, w, p, k⟩ s = [.ramp k] ∨ planFor ⟨.stream, w, p, k⟩ s = [.backhitch, .ramp k]
      ∨ planFor ⟨.stream, w, p, k⟩ s = [.seek, .ramp k] := by
    unfold planFor
    dsimp only
    repeat' split
    all_goals simp
  rcases hplan with h | h | h <;> rw [h] <;> rfl

theorem beginScan_begins (c : Scan) (p : Place) (hm : s.moc.motion = .stopped) (hop : s.moc.operation = none) :
    ScanBegun c.goal s (beginScan c p s) := by
  unfold beginScan
  dsimp only
  constructor
  case work => exact startStream_work _ _ _ hm hop
  all_goals simp

/-- With Directory Valid set, and an entry for the goal's object, the search is a header scan (R98). -/
theorem beginSearch_begins {g : ScanGoal} {known : Option Due} {e : DirEntry} (hvalid : s.fmc.directoryValid = true)
    (he : entryFor (goalObject s g) s.fmc.directory = some e) (hm : s.moc.motion = .stopped) (hop : s.moc.operation = none) :
    ScanBegun g s (beginSearch g known s) := by
  unfold beginSearch searchWrap
  rw [if_pos hvalid, he]
  dsimp only
  repeat' split
  · exact beginScan_begins { goal := g, due := some (dueAtStart e) } _ hm hop
  · rename_i x _
    exact beginScan_begins { goal := g, due := some x } _ hm hop
  · exact beginScan_begins { goal := g } _ hm hop

end Sys2Proof.Machine
end

section
/-! SUPPORT. A Data Buffer in READ with an empty read ring is worth one in NEUTRAL: the direction follows the ring when the blocks settle
(R47). `facing x u` is `u` with an empty read ring and the direction `x`. -/

namespace Sys2Proof.Machine

/-- A state with no read-side slot, in a direction. -/
def facing (x : Direction) (u : State) : State := { u with dbf.readRing := [], dbf.direction := x }

variable {x : Direction} {u : State}

/-- Every block but the Data Buffer is as it was, and of that all but the read ring and the direction. -/
theorem facing_blocks : (facing x u).pending = u.pending ∧ (facing x u).out = u.out ∧ (facing x u).timeBase = u.timeBase
    ∧ (facing x u).jumpers = u.jumpers ∧ (facing x u).dlp = u.dlp ∧ (facing x u).lbp = u.lbp ∧ (facing x u).events = u.events
    ∧ (facing x u).dbf = { u.dbf with readRing := [], direction := x } ∧ (facing x u).cpe = u.cpe ∧ (facing x u).fmc = u.fmc
    ∧ (facing x u).wch = u.wch ∧ (facing x u).rch = u.rch ∧ (facing x u).moc = u.moc ∧ (facing x u).sgv = u.sgv
    ∧ (facing x u).cah = u.cah ∧ (facing x u).hcm = u.hcm ∧ (facing x u).pst = u.pst ∧ (facing x u).frg = u.frg :=
  ⟨rfl, rfl, rfl, rfl, rfl, rfl, rfl, rfl, rfl, rfl, rfl, rfl, rfl, rfl, rfl, rfl, rfl, rfl⟩


/-! ## What reads neither the ring nor the direction: sending, the Event Set, the head condition -/

theorem facing_latchAll (es : List Event) : facing x (latchAll es u) = latchAll es (facing x u) := by
  induction es generalizing u with
  | nil => rfl
  | cons e es ih => exact ih (u := latch e u)

theorem facing_reply (tag : Tag) (r : Reply) : facing x (reply tag r u) = reply tag r (facing x u) := by
  unfold reply
  simp only [facing_blocks]
  split <;> rfl

theorem facing_enterRecord (f : FaultUnit) (c : FaultCause) : facing x (enterRecord f c u) = enterRecord f c (facing x u) := by
  unfold enterRecord
  simp only [facing_blocks]
  split <;> rfl

theorem facing_reportFault (f : FaultUnit) (c : FaultCause) : facing x (reportFault f c u) = reportFault f c (facing x u) := by
  unfold reportFault
  rw [← facing_enterRecord]
  dsimp only
  split <;> rfl

theorem facing_applyCap : facing x (applyCap u) = applyCap (facing x u) := by
  have hcap : capOf (facing x u) = capOf u := rfl
  unfold applyCap
  simp only [hcap, facing_blocks]
  split <;> rfl

theorem facing_setConditionCap (n : Nat) : facing x (setConditionCap n u) = setConditionCap n (facing x u) :=
  facing_applyCap (u := { u with moc.conditionCap := n })

theorem facing_riseTo (l : Level) : facing x (riseTo l u) = riseTo l (facing x u) := by
  have hrise := (facing_latchAll (x := x) (riseEvents u.hcm.level l)).trans
    (congrArg (latchAll _) (facing_setConditionCap (u := { u with hcm.level := l, hcm.cleaningCall := true }) (levelCap l)))
  unfold riseTo
  dsimp only
  split
  · exact (facing_reportFault _ _).trans (congrArg _ hrise)
  · exact hrise

theorem facing_testLevel : facing x (testLevel u) = testLevel (facing x u) := by
  unfold testLevel
  simp only [facing_blocks]
  split
  · exact facing_riseTo _
  · rfl

theorem facing_headSample (n : Nat) : facing x (headSample n u) = headSample n (facing x u) :=
  facing_testLevel (u := { u with hcm.hci := hciAfter u.hcm.hci n, hcm.samples := u.hcm.samples + 1 })

theorem facing_setEarlyWarning : facing x (setEarlyWarning u) = setEarlyWarning (facing x u) := by
  unfold setEarlyWarning
  simp only [facing_blocks]
  split <;> rfl

/-! ## The Motion Controller -/

theorem facing_enterPhase (op : Operation) : facing x (enterPhase op u) = enterPhase op (facing x u) := by
  unfold enterPhase
  simp only [facing_blocks]
  split <;> rfl

theorem facing_stopTape : facing x (stopTape u) = stopTape (facing x u) := by
  unfold stopTape
  simp only [facing_blocks]
  split
  · split
    · exact facing_enterPhase _
    · rfl
  · split <;> rfl

theorem facing_request (r : MotionReq) : facing x (request r u) = request r (facing x u) := by
  have hcan : canMove (facing x u) = canMove u := rfl
  have hmeets : ∀ op, meetsRequest r op (facing x u) = meetsRequest r op u := fun _ => rfl
  unfold request
  simp only [hcan, hmeets, facing_blocks]
  split
  · rfl
  · split
    · exact facing_enterPhase _
    · split <;> rfl

theorem facing_stopWriting : facing x (stopWriting u) = stopWriting (facing x u) := by
  unfold stopWriting
  simp only [← facing_stopTape, facing_blocks]
  split
  · split <;> rfl
  · split <;> rfl

theorem facing_settleMotion : facing x (settleMotion u) = settleMotion (facing x u) := by
  unfold settleMotion
  simp only [facing_blocks]
  split
  · split
    · split
      · rfl
      · exact facing_stopTape
    · split
      · rfl
      · exact facing_stopTape
    · split
      · rfl
      · exact facing_stopTape
    · rfl
  · rfl

/-! ## The command at the head, and what is dropped with it -/

/-- How the host is told that the command at the head has ended: by the Last Immediate Result, not at all, or by a reply (R105, R168). -/
def headTold (r : Reply) (q : QEntry) (s : State) : State :=
  if s.dlp.run.answered then latch .operationComplete { s with rch.lastImmediate := some ⟨r.outcome, s.fmc.position⟩ }
  else if s.dlp.run.mute then s
  else reply q.tag r s

/-- The command at the head leaves the queue (R171). -/
def headLeaves (q : QEntry) (rest : List QEntry) (s : State) : State :=
  if s.dlp.run.mute then { s with dlp.queue := rest, dlp.run := {} } else dropTag q.tag { s with dlp.queue := rest, dlp.run := {} }

theorem finishHead_eq {q : QEntry} {rest : List QEntry} (r : Reply) (hq : u.dlp.queue = q :: rest) :
    finishHead r u = headLeaves q rest (headTold r q u) := by
  unfold finishHead
  rw [hq]
  rfl

theorem facing_headTold (r : Reply) (q : QEntry) : facing x (headTold r q u) = headTold r q (facing x u) := by
  unfold headTold
  simp only [facing_blocks]
  split
  · rfl
  · split
    · rfl
    · exact facing_reply _ _

theorem facing_headLeaves (q : QEntry) (rest : List QEntry) : facing x (headLeaves q rest u) = headLeaves q rest (facing x u) := by
  unfold headLeaves
  simp only [facing_blocks]
  split <;> rfl

theorem facing_finishHead (r : Reply) : facing x (finishHead r u) = finishHead r (facing x u) := by
  cases hq : u.dlp.queue with
  | nil =>
    unfold finishHead
    simp only [hq, facing_blocks]
  | cons q rest =>
    rw [finishHead_eq r hq, finishHead_eq (u := facing x u) r hq, facing_headLeaves, facing_headTold]

theorem facing_endHead (o : OutcomeBlock) : facing x (endHead o u) = endHead o (facing x u) := by
  have hresults : ∀ c, resultsOf c (headFigure c (facing x u)) (facing x u) = resultsOf c (headFigure c u) u := fun c => by
    cases c <;> rfl
  unfold endHead
  simp only [hresults, facing_blocks]
  split
  · rfl
  · exact facing_finishHead _

theorem facing_dropEmptyOpen : facing x (dropEmptyOpen u) = dropEmptyOpen (facing x u) := by
  have hfilling : fillingSlot (facing x u) = fillingSlot u := rfl
  unfold dropEmptyOpen
  rw [hfilling]
  split
  · split <;> rfl
  · rfl

theorem facing_dropRecords (tag : Tag) : facing x (dropRecords tag u) = dropRecords tag (facing x u) := by
  unfold dropRecords
  simp only [facing_blocks]
  split
  · split
    · exact facing_dropEmptyOpen
    · rfl
  · rfl

theorem facing_dropUnplaced (tag : Tag) : facing x (dropUnplaced tag u) = dropUnplaced tag (facing x u) :=
  facing_dropRecords (u := { u with cpe.intake := u.cpe.intake.filter (fun x => x != .filemark tag) }) tag

theorem facing_dropLinkOperation : facing x (dropLinkOperation u) = dropLinkOperation (facing x u) := by
  unfold dropLinkOperation
  simp only [facing_blocks]
  split
  · split <;> rfl
  · rfl

theorem facing_dropWaitingOperation : facing x (dropWaitingOperation u) = dropWaitingOperation (facing x u) := by
  unfold dropWaitingOperation
  simp only [facing_blocks]
  split
  · split <;> rfl
  · rfl

theorem facing_pendReport (r : Report) : facing x (pendReport r u) = pendReport r (facing x u) := by
  unfold pendReport
  rw [← facing_dropWaitingOperation]
  dsimp only
  simp only [facing_blocks]
  split <;> rfl

/-! ## The Write Channel -/

theorem facing_startWriter : facing x (startWriter u) = startWriter (facing x u) := by
  have hstart : startCondition (facing x u) = startCondition u := rfl
  have hallowed : startAllowed (facing x u) = startAllowed u := rfl
  unfold startWriter
  simp only [hstart, hallowed, facing_blocks]
  split <;> rfl

theorem facing_askWriter : facing x (askWriter u) = askWriter (facing x u) := by
  unfold askWriter
  dsimp only
  rw [apply_ite (facing x)]
  exact ite_congr rfl (fun _ => facing_request _) (fun _ => rfl)

theorem facing_finishEod (c : EodCause) : facing x (finishEod c u) = finishEod c (facing x u) := by
  let idle : State := { u with
    wch.eodPlan := none, wch.nextPlace := u.fmc.eod.place, wch.wrapPhase := .open_, wch.writer := .idle }
  have hidle : facing x (if startCondition idle ∧ startAllowed idle then startWriter idle
      else if idle.dbf.flush ∨ c = .discard then stopWriting idle else startBackhitch .writing u.fmc.eod.place idle)
      = if startCondition idle ∧ startAllowed idle then startWriter (facing x idle)
      else if idle.dbf.flush ∨ c = .discard then stopWriting (facing x idle)
      else startBackhitch .writing u.fmc.eod.place (facing x idle) := by
    split
    · exact facing_startWriter
    · split
      · exact facing_stopWriting
      · exact facing_request _
  cases c with
  | endOfMedium => exact facing_stopWriting
  | failure => exact facing_stopWriting
  | idle => exact hidle
  | discard => exact hidle

theorem facing_toEod (c : EodCause) : facing x (toEod c u) = toEod c (facing x u) := by
  have hwanted : eodWanted (facing x u) = eodWanted u := rfl
  unfold toEod
  rw [hwanted]
  split
  · rfl
  · exact facing_finishEod c

theorem facing_writerIdle : facing x (writerIdle u) = writerIdle (facing x u) := by
  have hpending : closePending (facing x u) = closePending u := rfl
  unfold writerIdle
  simp only [hpending, facing_blocks]
  split
  · exact facing_toEod _
  · rfl

theorem facing_settleDuty : facing x (settleDuty u) = settleDuty (facing x u) := by
  unfold settleDuty
  simp only [facing_blocks]
  split <;> rfl

theorem facing_settleFlush : facing x (settleFlush u) = settleFlush (facing x u) := by
  have hbusy : writerBusy (facing x u) = writerBusy u := rfl
  unfold settleFlush
  simp only [hbusy, facing_blocks]
  split <;> rfl

/-! ## The Compression Engine -/

theorem facing_closeDataSet : facing x (closeDataSet u) = closeDataSet (facing x u) := by
  have hfilling : fillingSlot (facing x u) = fillingSlot u := rfl
  unfold closeDataSet
  rw [hfilling]
  split
  · rfl
  · split <;> rfl

theorem facing_dropIntake : facing x (dropIntake u) = dropIntake (facing x u) := by
  unfold dropIntake
  simp only [facing_blocks]
  split <;> rfl

theorem facing_closeIfFull (v : State) : facing x (if directoryFull v then closeDataSet v else v) =
    if directoryFull (facing x v) then closeDataSet (facing x v) else facing x v := by
  rw [apply_ite (facing x)]
  exact ite_congr rfl (fun _ => facing_closeDataSet) (fun _ => rfl)

/-- A filemark placed, the close of a full data set apart. -/
def filemarkPlaced (s : State) : State :=
  let t := dropIntake (addEntry .filemark [] [] s)
  { t with
    fmc.nextObject := t.fmc.nextObject + 1
    fmc.position := t.fmc.position + 1
    dlp.run.lastObject := t.fmc.nextObject + 1 }

theorem placeFilemark_eq (s : State) : placeFilemark s =
    if directoryFull (filemarkPlaced s) then closeDataSet (filemarkPlaced s) else filemarkPlaced s := rfl

theorem facing_filemarkPlaced : facing x (filemarkPlaced u) = filemarkPlaced (facing x u) := by
  have h := facing_dropIntake (x := x) (u := addEntry .filemark [] [] u)
  have hadd : facing x (addEntry .filemark [] [] u) = addEntry .filemark [] [] (facing x u) := rfl
  unfold filemarkPlaced
  rw [← hadd, ← h]
  rfl

theorem facing_placeFilemark : facing x (placeFilemark u) = placeFilemark (facing x u) := by
  rw [placeFilemark_eq, placeFilemark_eq, facing_closeIfFull, facing_filemarkPlaced]

/-! ## The Read Channel -/

theorem facing_askReader : facing x (askReader u) = askReader (facing x u) := by
  unfold askReader
  rw [apply_ite (facing x)]
  exact ite_congr rfl (fun _ => facing_request _) (fun _ => rfl)

theorem facing_restReader : facing x (restReader u) = restReader (facing x u) := by
  unfold restReader
  simp only [facing_blocks]
  split
  · rfl
  · split
    · rfl
    · split
      · rfl
      · split
        · exact facing_request _
        · exact facing_stopTape

theorem facing_beginScan (c : Scan) (p : Place) : facing x (beginScan c p u) = beginScan c p (facing x u) := facing_request _

theorem facing_searchWrap (g : ScanGoal) (t : Nat) (e : DirEntry) (known : Option Due) :
    facing x (searchWrap g t e known u) = searchWrap g t e known (facing x u) := by
  unfold searchWrap
  split
  · exact facing_beginScan _ _
  · split
    · exact facing_beginScan _ _
    · exact facing_beginScan _ _

theorem facing_endRebuild (r : Rebuild) (p : Place) : facing x (endRebuild r p u) = endRebuild r p (facing x u) := by
  unfold endRebuild
  exact congrArg (latch .directoryRebuilt) (facing_setEarlyWarning)

end Sys2Proof.Machine
end

section
/-! SUPPORT. Two drives that differ in this, that one is in NEUTRAL and the other in READ with no read-side slot, stay alike through all
that settles before the direction does, and then are one (R47). -/

namespace Sys2Proof.Machine

/-- The same state, or one that differs in the direction alone, with no read-side slot. -/
inductive Alike (a b : State) : Prop where
  | same (h : a = b)
  | apart (u : State) (ha : a = facing .neutral u) (hb : b = facing .read u)

variable {a b u : State}

theorem Alike.cpe (h : Alike a b) : a.cpe = b.cpe := by
  cases h with
  | same h => rw [h]
  | apart u ha hb => rw [ha, hb]; rfl

theorem Alike.facing (u : State) : Alike (facing .neutral u) (facing .read u) := .apart u rfl rfl

/-- What reads neither the ring nor the direction keeps two states alike. -/
theorem Alike.map {f : State → State} (hf : ∀ x u, Machine.facing x (f u) = f (Machine.facing x u)) (h : Alike a b) : Alike (f a) (f b) := by
  cases h with
  | same h => exact .same (congrArg f h)
  | apart u ha hb => exact .apart (f u) (by rw [ha, hf]) (by rw [hb, hf])

/-- The direction settled makes them one (R47). -/
theorem settleDirection_alike (h : Alike a b) : settleDirection a = settleDirection b := by
  cases h with
  | same h => rw [h]
  | apart u ha hb => rw [ha, hb]; rfl

/-- The drop of the READING slot settles the direction. -/
theorem dropReading_alike (h : Alike a b) : dropReading a = dropReading b := by
  cases h with
  | same h => rw [h]
  | apart u ha hb => rw [ha, hb]; rfl

/-! ## The write side -/

theorem endSearches_alike (h : Alike a b) : Alike (endSearches a) (endSearches b) := h.map fun _ _ => rfl

theorem reportFailure_alike (r : Report) (h : Alike a b) : Alike (reportFailure r a) (reportFailure r b) := by
  cases h with
  | same h => exact .same (congrArg _ h)
  | apart u ha hb =>
    have hu : Alike a b := .apart u ha hb
    have hpend : Alike (pendReport r a) (pendReport r b) := hu.map fun _ _ => facing_pendReport r
    have hunplaced : ∀ tag, Alike (dropUnplaced tag a) (dropUnplaced tag b) := fun tag => hu.map fun _ _ => facing_dropUnplaced tag
    have hend : ∀ o v w, Alike v w → Alike (endHead o v) (endHead o w) := fun o _ _ hv => hv.map fun _ _ => facing_endHead o
    subst ha hb
    unfold reportFailure
    have hwrites : ∀ x, headWrites (facing x u) = headWrites u := fun _ => rfl
    have hexempt : ∀ x, headExempt (facing x u) = headExempt u := fun _ => rfl
    have htag : ∀ x, headTag (facing x u) = headTag u := fun _ => rfl
    have hfails : ∀ o, Alike
        (if headWrites u then endHead o (dropReading (endSearches (dropUnplaced (headTag u) (facing .neutral u))))
          else pendReport r (facing .neutral u))
        (if headWrites u then endHead o (dropReading (endSearches (dropUnplaced (headTag u) (facing .read u))))
          else pendReport r (facing .read u)) := fun o => by
      split
      · exact hend _ _ _ (.same (dropReading_alike (endSearches_alike (hunplaced _))))
      · exact hpend
    simp only [hwrites, hexempt, htag]
    rw [show (facing .neutral u).dlp = u.dlp from rfl, show (facing .read u).dlp = u.dlp from rfl]
    split
    · exact hpend
    · split
      · exact hfails _
      · exact hfails _
      · exact hfails _
      · exact hfails _
      · exact hend _ _ _ (hunplaced _)
      · exact hend _ _ _ (hunplaced _)
      · exact hend _ _ _ (hunplaced _)
      · exact hend _ _ _ (hunplaced _)
      · exact hend _ _ _ hu
      · split
        · exact hpend
        · exact hend _ _ _ (hu.map fun _ _ => facing_dropLinkOperation)
      · exact hpend

/-- At End of Medium nothing is left to be issued but EOD (R73). -/
def mediumEnded (s : State) : State :=
  { voidEntries (fun e => e.kind != .eod) s with wch.rewriteQueue := [], wch.abandon := none, wch.endOfMediumStop := true }

/-- The report of the End of Medium, with the records held (R73, R76). -/
def mediumEndReported (s : State) : State := reportFailure ⟨.endOfMedium, none, s.fmc.eod.nextObject, held s⟩ s

theorem endOfMedium_eq (s : State) :
    endOfMedium s = mediumEndReported (endFlush (toEod .endOfMedium (mediumEnded s))) := rfl

theorem mediumEndReported_alike (u : State) :
    Alike (mediumEndReported (facing .neutral u)) (mediumEndReported (facing .read u)) := by
  have hheld : ∀ x, held (facing x u) = held u := fun _ => rfl
  unfold mediumEndReported
  simp only [hheld, facing_blocks]
  exact reportFailure_alike _ (.facing u)

theorem endOfMedium_alike (h : Alike a b) : Alike (endOfMedium a) (endOfMedium b) := by
  cases h with
  | same h => exact .same (congrArg _ h)
  | apart u ha hb =>
    subst ha hb
    have hended : ∀ x, mediumEnded (facing x u) = facing x (mediumEnded u) := fun _ => rfl
    have hflush : ∀ x v, endFlush (facing x v) = facing x (endFlush v) := fun _ _ => rfl
    rw [endOfMedium_eq, endOfMedium_eq, hended, hended, ← facing_toEod, ← facing_toEod, hflush, hflush]
    exact mediumEndReported_alike _

theorem endWrap_eq (s : State) : endWrap s =
    if lastWrap (cutUnsettled s) ≤ (cutUnsettled s).wch.nextPlace.wrap then endOfMedium (cutUnsettled s)
    else turnTo .writing (wrapStart ((cutUnsettled s).wch.nextPlace.wrap + 1)) none { cutUnsettled s with
      wch.nextPlace := wrapStart ((cutUnsettled s).wch.nextPlace.wrap + 1), wch.wrapPhase := .open_, wch.writer := .starting } := rfl

theorem endWrap_alike (h : Alike a b) : Alike (endWrap a) (endWrap b) := by
  cases h with
  | same h => exact .same (congrArg _ h)
  | apart u ha hb =>
    subst ha hb
    have hcut : ∀ x, cutUnsettled (facing x u) = facing x (cutUnsettled u) := fun _ => rfl
    have hlast : ∀ x v, lastWrap (facing x v) = lastWrap v := fun _ _ => rfl
    rw [endWrap_eq, endWrap_eq, hcut, hcut]
    generalize cutUnsettled u = v
    simp only [hlast, facing_blocks]
    split
    · exact endOfMedium_alike (.facing v)
    · exact (Alike.facing { v with
        wch.nextPlace := wrapStart (v.wch.nextPlace.wrap + 1), wch.wrapPhase := .open_, wch.writer := .starting }).map
          fun _ _ => facing_enterPhase _

/-- A closing wrap with nothing left on it has its tape run out (R66, R72). -/
def wrapClosed (s : State) : State :=
  if s.wch.wrapPhase = .closing ∧ s.wch.abandon = none ∧ s.dbf.writeRing.all (fun d => d.state != .writing) = true then
    { s with wch.wrapPhase := .runOut } else s

theorem checkWrap_eq (s : State) : checkWrap s = if s.wch.writer ≠ .writing ∨ s.wch.eodPlan ≠ none then s
    else if (wrapClosed s).wch.wrapPhase = .runOut ∧ (wrapClosed s).rch.trail = [] then endWrap (wrapClosed s) else wrapClosed s := rfl

theorem facing_wrapClosed (x : Direction) : facing x (wrapClosed u) = wrapClosed (facing x u) := by
  unfold wrapClosed
  simp only [facing_blocks]
  split <;> rfl

theorem checkWrap_alike (h : Alike a b) : Alike (checkWrap a) (checkWrap b) := by
  cases h with
  | same h => exact .same (congrArg _ h)
  | apart u ha hb =>
    subst ha hb
    rw [checkWrap_eq, checkWrap_eq, ← facing_wrapClosed, ← facing_wrapClosed]
    simp only [facing_blocks]
    split
    · exact .facing u
    · split
      · exact endWrap_alike (.facing _)
      · exact .facing _

/-! ## The engine -/

/-- A data set that opens makes the direction WRITE (R27, R47). -/
theorem openDataSet_alike (h : Alike a b) : Alike (openDataSet a) (openDataSet b) := by
  cases h with
  | same h => exact .same (congrArg _ h)
  | apart u ha hb =>
    subst ha hb
    by_cases hfree : freeSlots (facing .neutral u) = 0
    · exact .apart { u with cpe.engine := .slotWait } (if_pos hfree) (if_pos hfree)
    · exact .same ((if_neg hfree).trans (if_neg (c := freeSlots (facing .read u) = 0) hfree).symm)

theorem closeDataSet_alike (h : Alike a b) : Alike (closeDataSet a) (closeDataSet b) := h.map fun _ _ => facing_closeDataSet

/-- What a flush closes once its data set has opened (R34). -/
theorem closeOpened_alike (h : Alike a b) : Alike
    (if a.cpe.engine = .slotWait then a else { closeDataSet a with cpe.closeAfter := none })
    (if b.cpe.engine = .slotWait then b else { closeDataSet b with cpe.closeAfter := none }) := by
  rw [h.cpe]
  split
  · exact h
  · exact (closeDataSet_alike h).map (f := fun s => { s with cpe.closeAfter := none }) fun _ _ => rfl

theorem drainFrom_alike (n : Nat) (h : Alike a b) : Alike (drainFrom n a) (drainFrom n b) := by
  induction n generalizing a b with
  | zero => exact h
  | succ n ih =>
    cases h with
    | same h => exact .same (congrArg _ h)
    | apart u ha hb =>
      subst ha hb
      have hopen := openDataSet_alike (.facing u)
      have hclosed : Alike { closeDataSet (facing .neutral u) with cpe.closeAfter := none }
          { closeDataSet (facing .read u) with cpe.closeAfter := none } :=
        (closeDataSet_alike (.facing u)).map (f := fun s => { s with cpe.closeAfter := none }) fun _ _ => rfl
      have hfilling : ∀ x, fillingSlot (facing x u) = fillingSlot u := fun _ => rfl
      have hplaced : ∀ v w, Alike v w → Alike (placeFilemark v) (placeFilemark w) := fun _ _ hv => hv.map fun _ _ => facing_placeFilemark
      have hopened : ∀ v w, Alike v w → Alike
          (if v.cpe.engine = .slotWait then v else drainFrom n (placeFilemark v))
          (if w.cpe.engine = .slotWait then w else drainFrom n (placeFilemark w)) := fun v w hv => by
        have hcpe : v.cpe = w.cpe := hv.cpe
        rw [hcpe]
        split
        · exact hv
        · exact ih (hplaced _ _ hv)
      unfold drainFrom
      simp only [hfilling, facing_blocks]
      split
      · split
        · exact closeOpened_alike hopen
        · exact ih hclosed
      · split
        · exact ih (hplaced _ _ (.facing u))
        · exact hopened _ _ hopen
      · exact .facing u

/-- The engine goes on from a SLOT WAIT, if it may (R23). -/
def slotWaitOver (s : State) : State :=
  if s.cpe.engine = .slotWait then (if entryWaits s then openDataSet s else { s with cpe.engine := .idle }) else s

/-- The engine's state by the work in hand (R23). -/
def engineSettled (s : State) : State :=
  if s.cpe.engine = .slotWait then s else { s with cpe.engine := if engineWork s then .packing else .idle }

theorem settleEngine_eq (s : State) : settleEngine s = if s.cpe.engine = .unpacking ∨ engineBlocked s then s
    else if slotWaits s then s
    else engineSettled (drainFrom ((slotWaitOver s).cpe.intake.length + 2) (slotWaitOver s)) := rfl

theorem slotWaitOver_alike (u : State) : Alike (slotWaitOver (facing .neutral u)) (slotWaitOver (facing .read u)) := by
  have hentry : ∀ x, entryWaits (facing x u) = entryWaits u := fun _ => rfl
  unfold slotWaitOver
  simp only [hentry, facing_blocks]
  split
  · split
    · exact openDataSet_alike (.facing u)
    · exact .facing { u with cpe.engine := .idle }
  · exact .facing u

theorem engineSettled_alike (h : Alike a b) : Alike (engineSettled a) (engineSettled b) := by
  refine h.map fun x u => ?_
  have hwork : engineWork (facing x u) = engineWork u := rfl
  unfold engineSettled
  simp only [hwork, facing_blocks]
  split <;> rfl

theorem settleEngine_alike (h : Alike a b) : Alike (settleEngine a) (settleEngine b) := by
  cases h with
  | same h => exact .same (congrArg _ h)
  | apart u ha hb =>
    subst ha hb
    have hblocked : ∀ x, engineBlocked (facing x u) = engineBlocked u := fun _ => rfl
    have hwaits : slotWaits (facing .read u) = slotWaits (facing .neutral u) := rfl
    have hover := slotWaitOver_alike u
    rw [settleEngine_eq, settleEngine_eq]
    simp only [hblocked, hwaits, hover.cpe, facing_blocks]
    split
    · exact .facing u
    · split
      · exact .facing u
      · exact engineSettled_alike (drainFrom_alike _ hover)

/-- What settles on the write side keeps two states alike. -/
theorem settleWrite_alike (h : Alike a b) : Alike (settleWrite a) (settleWrite b) := by
  have hstarted := (settleEngine_alike h).map (f := startWriter) fun _ _ => facing_startWriter
  have hidle := hstarted.map (f := writerIdle) fun _ _ => facing_writerIdle
  have hasked := (checkWrap_alike hidle).map (f := askWriter) fun _ _ => facing_askWriter
  have hduty := hasked.map (f := settleDuty) fun _ _ => facing_settleDuty
  have hflushed := hduty.map (f := settleFlush) fun _ _ => facing_settleFlush
  unfold settleWrite
  exact hflushed

end Sys2Proof.Machine
end

section
/-! SUPPORT. The read side of two drives that differ in the direction alone, NEUTRAL or READ with no read-side slot (R47). -/

namespace Sys2Proof.Machine

variable {a b u : State}

/-! ## Searches that end, and data sets found (R97, R98) -/

theorem passOverHead_alike (h : Alike a b) : Alike (passOverHead a) (passOverHead b) := by
  cases h with
  | same h => exact .same (congrArg _ h)
  | apart u ha hb =>
    subst ha hb
    exact settleEngine_alike ((Alike.facing u).map fun _ _ => facing_dropRecords (headTag u))

/-- A search ends with its tape stopped, and what is known of the place is forgotten (R97). -/
def searchStopped (s : State) : State :=
  forgetPlace (stopTape (endSearch { s with
    dbf.readAheadActive := s.dbf.readAheadActive && !s.rch.scan.any (fun c => c.goal == .position) }))

/-- The command at the head of a search fails at the Position (R97). -/
def headUnread (s : State) : State := endHead (readFailureBlock (some .unreadable) none s) (passOverHead s)

theorem failSearch_eq (p : Option Nat) (s : State) : failSearch p s = if searchesAhead s then searchStopped s
    else headUnread { searchStopped s with fmc.position := p.getD (searchStopped s).fmc.position } := rfl

theorem facing_searchStopped (x : Direction) : facing x (searchStopped u) = searchStopped (facing x u) :=
  congrArg forgetPlace (facing_stopTape (u := endSearch { u with
    dbf.readAheadActive := u.dbf.readAheadActive && !u.rch.scan.any (fun c => c.goal == .position) }))

theorem headUnread_alike (u : State) : Alike (headUnread (facing .neutral u)) (headUnread (facing .read u)) := by
  have hblock : ∀ x, readFailureBlock (some .unreadable) none (facing x u) = readFailureBlock (some .unreadable) none u := fun _ => rfl
  unfold headUnread
  rw [hblock, hblock]
  exact (passOverHead_alike (.facing u)).map (f := endHead _) fun _ _ => facing_endHead _

theorem failSearch_alike (p : Option Nat) (u : State) : Alike (failSearch p (facing .neutral u)) (failSearch p (facing .read u)) := by
  have hahead : ∀ x, searchesAhead (facing x u) = searchesAhead u := fun _ => rfl
  rw [failSearch_eq, failSearch_eq, hahead, hahead, ← facing_searchStopped, ← facing_searchStopped]
  split
  · exact .facing _
  · exact headUnread_alike { searchStopped u with fmc.position := p.getD (searchStopped u).fmc.position }

/-- A collection that begins makes the direction READ (R47). -/
theorem beginCollection_same (n : Nat) (k : CollectFor) (u : State) :
    beginCollection n k (facing .neutral u) = beginCollection n k (facing .read u) := rfl

theorem foundData_alike (c : Scan) (h : SeenHeader) (u : State) :
    Alike (foundData c h (facing .neutral u)) (foundData c h (facing .read u)) := by
  unfold foundData
  split
  · dsimp only
    have hfree : freeSlots (endSearch (takeFound h (facing .read u))) = freeSlots (endSearch (takeFound h (facing .neutral u))) := rfl
    rw [hfree]
    split
    · exact .facing (endSearch (takeFound h u))
    · exact .same rfl
  · exact .facing (foundAppend (endsUnended c h u) c h u)
  · exact (Alike.facing { u with rch.scan := some { c with last := some h }, rch.duty := .idle, dlp.run.phase := .moving }).map
      fun _ _ => facing_request _

/-- What becomes of a search whose collection is lost, by what the headers on either side show (R97). -/
def lostSettled (before : Option Nat) (shown : Nat → Bool) (place : Place) (c : Scan) (y : Due) (s : State) : State :=
  match before, c.goal with
  | some _, .space _ _ _ _ _ => failSearch before s
  | some o, _ => if shown o then foundData c (marker y.dsn o place) s else failSearch before s
  | none, _ => failSearch none s

/-- That the headers on either side show the wanted object to lie within the data set lost, which begins with object `o` (R97). -/
def lostHolds (c : Scan) (y : Due) (t o : Nat) : Bool :=
  let adjacent := c.beyondGap.any (fun a => if c.forward then a.header.dsn == y.dsn + 1 else a.header.dsn + 1 == y.dsn)
  let passed := if c.forward then c.beyondGap.any (fun a => a.header.passed t)
    else match c.last with
      | some l => l.header.passed t
      | none => y.object.any (fun o => decide (t < o))
  adjacent && decide (o ≤ t) && passed && !(c.last.any (fun l => c.goal.fromStart && l.header.holds t))

theorem helpLost_eq (c : Scan) (y : Due) (s : State) : helpLost c y s =
    lostSettled (if c.forward then y.object else c.beyondGap.map (fun a => a.header.after)) (lostHolds c y (goalObject s c.goal))
      (if c.forward then y.place else (c.beyondGap.map (fun a => a.place)).getD y.place) c y s := rfl

theorem helpLost_alike (c : Scan) (y : Due) (u : State) :
    Alike (helpLost c y (facing .neutral u)) (helpLost c y (facing .read u)) := by
  have hgoal : ∀ x, goalObject (facing x u) c.goal = goalObject u c.goal := fun _ => by cases c.goal <;> rfl
  rw [helpLost_eq, helpLost_eq, hgoal, hgoal]
  unfold lostSettled
  split
  · exact failSearch_alike _ u
  · split
    · exact foundData_alike _ _ u
    · exact failSearch_alike _ u
  · exact failSearch_alike _ u

theorem helpEnded_alike (h : Alike a b) : Alike (helpEnded a) (helpEnded b) := by
  cases h with
  | same h => exact .same (congrArg _ h)
  | apart u ha hb =>
    subst ha hb
    unfold helpEnded
    simp only [facing_blocks, List.getLast?_nil]
    split
    · split
      · rename_i hnone _
        cases hnone
      · exact helpLost_alike _ _ { u with rch.duty := .scan, rch.collectFor := .forward }
      · exact failSearch_alike _ { u with rch.duty := .scan, rch.collectFor := .forward }
    · exact .facing u

/-! ## The Rebuild pass (R16, R17) -/

theorem rebuildTail_alike (r : Rebuild) (u : State) : Alike (rebuildTail r (facing .neutral u)) (rebuildTail r (facing .read u)) := by
  unfold rebuildTail
  split
  · exact ((Alike.facing u).map fun _ _ => facing_stopTape).map fun _ _ => facing_endRebuild _ _
  · exact .same rfl

theorem rebuildHelpEnded_alike (h : Alike a b) : Alike (rebuildHelpEnded a) (rebuildHelpEnded b) := by
  cases h with
  | same h => exact .same (congrArg _ h)
  | apart u ha hb =>
    subst ha hb
    unfold rebuildHelpEnded
    simp only [facing_blocks, List.getLast?_nil]
    split
    · exact rebuildTail_alike _ { u with rch.collectFor := .forward }
    · exact rebuildTail_alike _ { u with rch.collectFor := .forward }
    · exact .facing u

/-! ## Collections (R56, R92) -/

theorem beginForward_alike (h : Alike a b) : Alike (beginForward a) (beginForward b) := by
  cases h with
  | same h => exact .same (congrArg _ h)
  | apart u ha hb =>
    subst ha hb
    have hfree : readerFree (facing .read u) = readerFree (facing .neutral u) := rfl
    have hreading : readingSlot (facing .read u) = readingSlot (facing .neutral u) := rfl
    have hnext : nextToRead (facing .read u) = nextToRead (facing .neutral u) := rfl
    have hahead : aheadWants (facing .read u) = aheadWants (facing .neutral u) := rfl
    have hneeds : readNeeds (facing .read u) = readNeeds (facing .neutral u) := rfl
    have hbeyond : ∀ n, beyondEod n (facing .read u) = beyondEod n (facing .neutral u) := fun _ => rfl
    have hslots : freeSlots (facing .read u) = freeSlots (facing .neutral u) := rfl
    have hend : atEndOfData (facing .read u).fmc.position (facing .read u) =
      atEndOfData (facing .neutral u).fmc.position (facing .neutral u) := rfl
    have hstopped := Alike.facing { u with dbf.readAheadActive := false }
    unfold beginForward
    rw [hfree, hreading, hnext, hahead, hneeds, hslots, hend]
    simp only [hbeyond]
    split
    · exact .facing u
    · split
      · split
        · exact hstopped
        · exact .facing u
      · split
        · split
          · exact hstopped
          · split
            · exact .facing u
            · exact .same rfl
        · exact .facing u

theorem stopAhead_alike (u : State) : Alike (stopAhead (facing .neutral u)) (stopAhead (facing .read u)) := by
  have hnext : nextToRead (facing .read u) = nextToRead (facing .neutral u) := rfl
  have hbeyond : ∀ n, beyondEod n (facing .read u) = beyondEod n (facing .neutral u) := fun _ => rfl
  unfold stopAhead
  rw [hnext]
  simp only [hbeyond]
  split
  · split
    · exact .facing { u with dbf.readAheadActive := false }
    · exact .facing u
  · exact .facing u

/-- Where the tape is after a last collection: where a ladder ended, it goes by the place of its last frame (R95). -/
def ladderResumes (ladder : Bool) (s : State) (t : State) : State :=
  if ladder = true ∧ s.rch.lastEndFinal = true then { t with dbf.readAheadActive := false }
  else if ladder then { t with rch.resume := s.rch.lastEnd.or t.rch.resume } else t

theorem endReading_eq (ladder : Bool) (s : State) :
    endReading ladder s = restReader (ladderResumes ladder s (endCollecting (stopAhead s))) := rfl

theorem endReading_alike (ladder : Bool) (u : State) :
    Alike (endReading ladder (facing .neutral u)) (endReading ladder (facing .read u)) := by
  have hresumes : ∀ y x v, facing x (ladderResumes ladder u v) = ladderResumes ladder (facing y u) (facing x v) := fun y x v => by
    unfold ladderResumes
    simp only [facing_blocks]
    split
    · rfl
    · split <;> rfl
  have hended := (stopAhead_alike u).map (f := endCollecting) fun _ _ => rfl
  rw [endReading_eq, endReading_eq]
  exact (hended.map (f := ladderResumes ladder u) fun x v => hresumes .neutral x v).map fun _ _ => facing_restReader

end Sys2Proof.Machine
end

section
/-! SUPPORT. Collections and searches that settle on two drives that differ in the direction alone, NEUTRAL or READ with no read-side slot
(R47, R92, R98). -/

namespace Sys2Proof.Machine

variable {a b u : State}

/-! ## A collection that completes (R92) -/

/-- The header that a collection's frames give. -/
def collectedHeader (c : Collector) : Header := c.header.getD ⟨c.dsn, 0, 0, []⟩

/-- The header stands with what was expected (R92). -/
def headerStands (c : Collector) (s : State) : Bool :=
  (collectedHeader c).consistent && (match s.rch.expected with | some e => e == (collectedHeader c).firstObject | none => true)

/-- A collection completes clean (R92). -/
def collectionTaken (c : Collector) (s : State) : State :=
  let t := changeRead c.dsn (Slot.fill (collectedHeader c) c) s
  headSample (sampleOf (c.missing.getD 0)) { t with
    rch.expected := some (collectedHeader c).after
    rch.dataSetsRead := t.rch.dataSetsRead + 1
    rch.recovered := if 0 < c.passNumber then t.rch.recovered + 1 else t.rch.recovered
    rch.offset := .none }

/-- The next data set is begun at once after a clean completion (R92, R95). -/
def nextBegun (ladder : Bool) (c : Collector) (s : State) : State :=
  let t := beginCollection (c.dsn + 1) .forward s
  if ladder then resumeAfterLadder { t with rch.lastEnd := s.rch.lastEnd }
  else if t.moc.motion = .streaming ∧ t.moc.operation = none ∧ t.moc.step ≠ t.sgv.target then speedChange .collecting (here t) t
  else t

/-- The data set proves to be of a wrong format (R92). -/
def collectionLost (c : Collector) (s : State) : State :=
  let t := changeRead c.dsn (Slot.lost .formatError c) s
  headSample (sampleOf (c.missing.getD 0)) { t with
    rch.unrecovered := t.rch.unrecovered + 1
    rch.expected := none
    rch.next := none
    dbf.readAheadActive := false }

theorem completeFrom_succ (n : Nat) (s : State) : completeFrom (n + 1) s = match s.rch.current with
    | none => s
    | some c =>
      if c.held.length < 33 then s
      else if headerStands c s then
        if goesOn (collectionTaken c s) then completeFrom n (nextBegun (s.rch.duty == .recover) c (collectionTaken c s))
        else endReading (s.rch.duty == .recover) (collectionTaken c s)
      else restReader (endCollecting (latch .readFailure (collectionLost c s))) := rfl

/-- With no read-side slot there is none to fill. -/
theorem collectionTaken_facing (c : Collector) (u : State) : ∃ v, ∀ x, collectionTaken c (facing x u) = facing x v :=
  ⟨_, fun x => (facing_headSample (x := x) (u := { u with
    rch.expected := some (collectedHeader c).after
    rch.dataSetsRead := u.rch.dataSetsRead + 1
    rch.recovered := if 0 < c.passNumber then u.rch.recovered + 1 else u.rch.recovered
    rch.offset := .none }) (sampleOf (c.missing.getD 0))).symm⟩

theorem collectionLost_facing (c : Collector) (u : State) : ∃ v, ∀ x, collectionLost c (facing x u) = facing x v :=
  ⟨_, fun x => (facing_headSample (x := x) (u := { u with
    rch.unrecovered := u.rch.unrecovered + 1
    rch.expected := none
    rch.next := none
    dbf.readAheadActive := false }) (sampleOf (c.missing.getD 0))).symm⟩

theorem completeFrom_alike (n : Nat) (h : Alike a b) : Alike (completeFrom n a) (completeFrom n b) := by
  cases n with
  | zero => exact h
  | succ n =>
    cases h with
    | same h => exact .same (congrArg _ h)
    | apart u ha hb =>
      subst ha hb
      rw [completeFrom_succ, completeFrom_succ]
      simp only [facing_blocks]
      split
      · exact .facing u
      · rename_i c _
        obtain ⟨v, hv⟩ := collectionTaken_facing c u
        obtain ⟨w, hw⟩ := collectionLost_facing c u
        have hstands : ∀ x, headerStands c (facing x u) = headerStands c u := fun _ => rfl
        have hgoes : goesOn (facing .read v) = goesOn (facing .neutral v) := rfl
        have hbegun : ∀ l, nextBegun l c (facing .read v) = nextBegun l c (facing .neutral v) := fun _ => by
          unfold nextBegun
          rw [← beginCollection_same]
          rfl
        rw [hv, hv, hw, hw, hstands, hstands, hgoes, hbegun]
        split
        · exact .facing u
        · split
          · split
            · exact .same rfl
            · exact endReading_alike _ v
          · exact (Alike.facing (endCollecting (latch .readFailure w))).map (f := restReader) fun _ _ => facing_restReader

/-! ## The search for the Position (R98) -/

theorem beginSearch_alike (g : ScanGoal) (known : Option Due) (u : State) :
    Alike (beginSearch g known (facing .neutral u)) (beginSearch g known (facing .read u)) := by
  have hgoal : ∀ x, goalObject (facing x u) g = goalObject u g := fun _ => by cases g <;> rfl
  have hhere : ∀ x, here (facing x u) = here u := fun _ => rfl
  have hscan : ∀ c p, Alike (beginScan c p (facing .neutral u)) (beginScan c p (facing .read u)) :=
    fun c p => (Alike.facing u).map (f := beginScan c p) fun _ _ => facing_beginScan c p
  unfold beginSearch
  simp only [hgoal, hhere, facing_blocks]
  split
  · split
    · exact (Alike.facing u).map (f := searchWrap g _ _ known) fun _ _ => facing_searchWrap g _ _ known
    · exact failSearch_alike none { u with rch.scan := some { goal := g } }
  · split
    · exact hscan _ _
    · exact hscan _ _

theorem seekForRead_alike (h : Alike a b) : Alike (seekForRead a) (seekForRead b) := by
  cases h with
  | same h => exact .same (congrArg _ h)
  | apart u ha hb =>
    subst ha hb
    have hexecuting : readExecuting (facing .read u) = readExecuting (facing .neutral u) := rfl
    have hahead : aheadWants (facing .read u) = aheadWants (facing .neutral u) := rfl
    have hfree : readerFree (facing .read u) = readerFree (facing .neutral u) := rfl
    have hend : ∀ p, atEndOfData p (facing .read u) = atEndOfData p (facing .neutral u) := fun _ => rfl
    unfold seekForRead
    rw [hexecuting, hahead, hfree, hend]
    simp only [facing_blocks]
    split
    · exact beginSearch_alike _ _ u
    · exact .facing u

theorem settleReader_alike (h : Alike a b) : Alike (settleReader a) (settleReader b) := by
  have hcompleted : Alike (completeCurrent (beginForward a)) (completeCurrent (beginForward b)) :=
    completeFrom_alike 98 (beginForward_alike h)
  exact hcompleted.map (f := askReader) fun _ _ => facing_askReader

theorem settleRead_alike (h : Alike a b) : Alike (settleRead a) (settleRead b) := by
  have hread := seekForRead_alike (settleReader_alike (rebuildHelpEnded_alike (helpEnded_alike h)))
  exact hread.map (f := settleMotion) fun _ _ => facing_settleMotion

/-! ## All that settles (R47) -/

/-- Once the direction has settled the two are one. -/
theorem settleBlocks_facing (u : State) : settleBlocks (facing .read u) = settleBlocks (facing .neutral u) := by
  unfold settleBlocks
  rw [settleDirection_alike (settleRead_alike (settleWrite_alike (.facing u)))]

/-- A command is finished alike on a drive in READ with no read-side slot and on one in NEUTRAL. -/
theorem finish_facing (u : State) : finish (facing .read u) = finish (facing .neutral u) := by
  unfold finish progress
  rw [show settleRound (facing .read u) = settleRound (facing .neutral u) from congrArg resumeHead (settleBlocks_facing u)]

end Sys2Proof.Machine
end

section
/-! SUPPORT. Space and Locate served from the buffer, begun on tape, or kept waiting for it (R58, R98, R99, R102, R103, R105, R112). -/

namespace Sys2Proof.Machine

variable {s u : State} {tag : Tag} {c : MedCmd}

theorem exec_space (kind : SpaceKind) (dir : Dir) (n : Nat) (imm : Bool) :
    exec (.space tag kind dir n imm) s = mediumIn tag (.space kind dir n imm) s := rfl

theorem exec_locate (t : Nat) (imm : Bool) : exec (.locate tag t imm) s = mediumIn tag (.locate t imm) s := rfl

/-! ## The direction of a drive that takes the command (R47) -/

theorem facing_of {x : Direction} (hd : u.dbf.direction = x) (hr : u.dbf.readRing = []) : facing x u = u := by
  unfold facing
  rw [← hd]
  exact congrArg (fun r => { u with dbf.readRing := r }) hr.symm

/-- Whether the direction settles as a command is taken or as it finishes is one. -/
theorem finish_settled (p : HeadPhase) (hw : u.dbf.direction ≠ .write) :
    finish (setPhase p (settleDirection u)) = finish (setPhase p u) := by
  by_cases hr : u.dbf.direction = .read → u.dbf.readRing ≠ []
  · rw [settleDirection_stands hw hr]
  · push Not at hr
    obtain ⟨hd, hring⟩ := hr
    have hread : facing .read u = u := facing_of hd hring
    have hneutral : settleDirection u = facing .neutral u := congrArg settleDirection hread.symm
    have hphase : ∀ x, setPhase p (facing x u) = facing x (setPhase p u) := fun _ => rfl
    rw [hneutral, hphase, ← finish_facing (setPhase p u), ← hphase, hread]

/-! ## Taken with the write side empty and the writer at rest -/

/-- What is asked of the drive before a Space or a Locate does its work at once (R99, R112). -/
structure WorksAtOnce (tag : Tag) (s : State) : Prop where
  passes : Passes tag s
  empty : writeSideEmpty s = true
  still : writerBusy s = false
  direction : s.dbf.direction ≠ .write
  reading : s.dbf.direction = .read → s.dbf.readRing ≠ []

/-- The direction stands, and the command does its own work. -/
theorem positions_works (hc : Positions c) (h : WorksAtOnce tag s) (hf : readFieldTest c = none) :
    mediumIn tag c s = .next (finish (readOwn c (taken tag c s))) := by
  obtain ⟨hpass, hempty, -, hd, hr⟩ := h
  rw [positions_taken hc hpass hempty hf, settleDirection_stands (by exact hd) (by exact hr)]

theorem answerIfImmediate_false : answerIfImmediate false u = u := rfl

theorem answerIfImmediate_true : answerIfImmediate true u = answerEarly u := rfl

/-- An answer made early changes neither the directory nor the write channel (R105). -/
theorem answerIfImmediate_frame (imm : Bool) (u : State) :
    (answerIfImmediate imm u).fmc = u.fmc ∧ (answerIfImmediate imm u).wch = u.wch := by
  unfold answerIfImmediate answerEarly reply emit
  repeat' split
  all_goals exact ⟨rfl, rfl⟩

theorem space_works {kind : SpaceKind} {dir : Dir} {n : Nat} (imm : Bool) (h : WorksAtOnce tag s) (hn : n ≤ 16777215)
    (hdir : ¬(kind = .eod ∧ dir = .backward)) (hv : n = 0 ∨ kind ≠ .eod ∨ s.fmc.directoryValid = true) :
    exec (.space tag kind dir n imm) s =
      .next (finish (spaceWork kind dir n (answerIfImmediate imm (taken tag (.space kind dir n imm) s)))) := by
  obtain ⟨hfmc, hwch⟩ := answerIfImmediate_frame imm (taken tag (.space kind dir n imm) s)
  have hstill : writerBusy (answerIfImmediate imm (taken tag (.space kind dir n imm) s)) = false := by
    unfold writerBusy
    rw [hwch]
    exact h.still
  rw [exec_space, positions_works (.space ..) h (readFieldTest_space imm hn hdir), readOwn, whenTapeFree_free hstill,
    tapeWork_space (by rw [hfmc]; exact hv)]

theorem locate_works {t : Nat} (imm : Bool) (h : WorksAtOnce tag s) (ht : t ≤ 281474976710655) (hv : s.fmc.directoryValid = true) :
    exec (.locate tag t imm) s = .next (finish (locateWork t (answerIfImmediate imm (taken tag (.locate t imm) s)))) := by
  obtain ⟨hfmc, hwch⟩ := answerIfImmediate_frame imm (taken tag (.locate t imm) s)
  have hstill : writerBusy (answerIfImmediate imm (taken tag (.locate t imm) s)) = false := by
    unfold writerBusy
    rw [hwch]
    exact h.still
  rw [exec_locate, positions_works (.locate ..) h (readFieldTest_locate imm ht), readOwn, whenTapeFree_free hstill,
    tapeWork_locate (by rw [hfmc]; exact hv)]

/-- While the writer is busy a Locate waits for the tape (R112). -/
theorem locate_waits {t : Nat} (h : Passes tag s) (hempty : writeSideEmpty s = true) (hbusy : writerBusy s = true)
    (hd : s.dbf.direction ≠ .write) (ht : t ≤ 281474976710655) :
    exec (.locate tag t false) s = .next (finish (setPhase .waitTape (taken tag (.locate t false) s))) := by
  have hwch : (settleDirection (taken tag (.locate t false) s)).wch = s.wch := by
    unfold settleDirection
    repeat' split
    all_goals rfl
  have hbusy' : writerBusy (settleDirection (taken tag (.locate t false) s)) = true := by
    unfold writerBusy
    rw [hwch]
    exact hbusy
  rw [exec_locate, positions_taken (.locate ..) h hempty (readFieldTest_locate false ht),
    readOwn, answerIfImmediate_false, whenTapeFree_busy rfl hbusy', finish_settled .waitTape (by exact hd)]

/-! ## Answered with no need of the tape (R102, R105; log 31) -/

/-- A command just taken is answered as if its start had not been noted. -/
theorem endHead_startedTaken {o : OutcomeBlock} (p : Nat) (h : HeadFree tag s) :
    endHead o { taken tag c s with dlp.run.startPosition := p } = answered tag c o s := by
  obtain ⟨⟨hup, -⟩, -, hrun, -⟩ := id h
  exact (endHead_started (s := taken tag c s) o p rfl (congrArg Run.answered hrun) (congrArg Run.mute hrun) hup).trans
    (endHead_taken h)

theorem space_none {kind : SpaceKind} {dir : Dir} (h : WorksAtOnce tag s) (hdir : ¬(kind = .eod ∧ dir = .backward)) :
    exec (.space tag kind dir 0 false) s = .next (finish (answered tag (.space kind dir 0 false) .good s)) := by
  rw [space_works false h (Nat.zero_le _) hdir (.inl rfl), answerIfImmediate_false, spaceWork_none,
    endHead_startedTaken _ h.passes.served.1]

theorem space_atStart {kind : SpaceKind} {n : Nat} (h : WorksAtOnce tag s) (hk : kind ≠ .eod) (hp : s.fmc.position = 0)
    (hpos : 0 < n) (hn : n ≤ 16777215) : exec (.space tag kind .backward n false) s =
      .next (finish (answered tag (.space kind .backward n false) (.sense { sense .beginning with info := some n }) s)) := by
  rw [space_works false h hn (fun hkd => hk hkd.1) (.inr (.inl hk)), answerIfImmediate_false, spaceWork_atStart hk hpos (by exact hp),
    endHead_startedTaken _ h.passes.served.1]

theorem space_noneAnswered {kind : SpaceKind} {dir : Dir} (h : WorksAtOnce tag s) (hdir : ¬(kind = .eod ∧ dir = .backward)) :
    exec (.space tag kind dir 0 true) s = .next (finish { heard s with
      dlp.tags := (s.dlp.tags ++ [tag]).filter (· ≠ tag)
      out := s.out ++ [.reply tag ⟨.good, .position s.fmc.position⟩]
      rch.lastImmediate := some ⟨.good, s.fmc.position⟩
      events := s.events.modify 8 EventFlags.latch }) := by
  obtain ⟨hopen, hq, hrun, -⟩ := h.passes.served.1
  have hearly := answerEarly_taken (c := .space kind dir 0 true) hopen hrun
  rw [space_works true h (Nat.zero_le _) hdir (.inl rfl), spaceWork_none,
    answerIfImmediate_true, hearly]
  refine congrArg (fun t => Host.Outcome.next (finish t))
    ((endHead_answered (q := ⟨tag, .space kind dir 0 true⟩) (rest := []) _ rfl rfl (by exact congrArg Run.mute hrun)).trans ?_)
  simp only [taken, heard, ← hq, ← hrun]

end Sys2Proof.Machine
end

section
/-! SUPPORT. Where the search of a Space or a Locate leads: to the EOD place, to a header scan, or to a slot of the read ring (R58, R97,
R98, R102, R103). -/

namespace Sys2Proof.Machine

variable {s t u : State} {tag : Tag} {c : MedCmd}

/-! ## On tape (R97, R98, R103) -/

/-- The EOD place is sought for the command at the head, on a tape that was at rest (R103). -/
structure EodSought (s t : State) : Prop where
  operation : t.moc.operation = some ⟨.toEod, some ⟨s.fmc.eod.wrap, s.fmc.eod.lpos⟩, [.seek], false⟩
  fmc : t.fmc = s.fmc
  out : t.out = s.out
  dlp : t.dlp = { s.dlp with run := { s.dlp.run with phase := .moving } }
  lastImmediate : t.rch.lastImmediate = s.rch.lastImmediate

theorem dropReadSide_lastImmediate (count : Bool) : (dropReadSide count s).rch.lastImmediate = s.rch.lastImmediate := by
  unfold dropReadSide settleDirection stopCollecting stopUnpacking dropPositionSearch
  dsimp only
  repeat' split
  all_goals rfl

theorem seekEod_sought (c : Scan) (hm : s.moc.motion = .stopped) (hop : s.moc.operation = none) :
    EodSought s (seekEod c (dropReadSide true s)) := by
  obtain ⟨hout, hdlp, hfmc, -, hmoc, -⟩ := dropReadSide_frame s true
  obtain ⟨hf, ho, hd, hl⟩ := seekEod_frame c (dropReadSide true s)
  have hseeks := seekEod_seeks (s := dropReadSide true s) c (by rw [hmoc, hm]) (by rw [hmoc, hop])
  exact ⟨by rw [hseeks, hfmc], hf.trans hfmc, ho.trans hout, by rw [hd, hdlp], hl.trans (dropReadSide_lastImmediate true)⟩

/-- A search by the directory begins its scan once the read side is dropped (R98). -/
theorem beginSearch_dropped {g : ScanGoal} {known : Option Due} {e : DirEntry} (hvalid : s.fmc.directoryValid = true)
    (he : entryFor (goalObject s g) s.fmc.directory = some e) (hm : s.moc.motion = .stopped) (hop : s.moc.operation = none) :
    ScanBegun g s (beginSearch g known (dropReadSide true s)) := by
  obtain ⟨hout, hdlp, hfmc, -, hmoc, -⟩ := dropReadSide_frame s true
  have hgoal : goalObject (dropReadSide true s) g = goalObject s g := by
    unfold goalObject
    rw [hfmc]
  obtain ⟨hduty, hg, hwork, hf, ho, hd⟩ := beginSearch_begins (s := dropReadSide true s) (g := g) (known := known)
    (by rw [hfmc, hvalid]) (by rw [hgoal, hfmc, he]) (by rw [hmoc, hm]) (by rw [hmoc, hop])
  exact ⟨hduty, hg, hwork, hf.trans hfmc, ho.trans hout, hd.trans hdlp⟩

theorem stopSlot_empty (q : Nat) (hr : s.dbf.readRing = []) : stopSlot q s = none := by
  have hwalk : walkable s = [] := by
    unfold walkable
    rw [hr]
    rfl
  unfold stopSlot
  rw [hwalk]
  simp

theorem pointerInRing_empty (hr : s.dbf.readRing = []) : pointerInRing s = false := by
  have hwalk : walkable s = [] := by
    unfold walkable
    rw [hr]
    rfl
  unfold pointerInRing
  rw [hwalk]
  rfl

/-- What a search has noted as it leaves the buffer. -/
def searching (s : State) : State := { s with dlp.run.startPosition := s.fmc.position, dlp.run.phase := .searching }

/-- A Locate at or past the end of the data seeks the EOD place (R103). -/
theorem locateWork_atEnd {t : Nat} (ht : s.fmc.eod.nextObject ≤ t) (hm : s.moc.motion = .stopped) (hop : s.moc.operation = none) :
    EodSought (searching s) (locateWork t s) := by
  have hend : ¬ t < s.fmc.eod.nextObject := Nat.not_lt.2 ht
  unfold locateWork
  dsimp only
  rw [if_neg hend]
  unfold locateOnTape
  dsimp only
  rw [if_neg (by simpa using ht)]
  obtain ⟨h1, h2, h3, h4, h5⟩ := seekEod_sought (s := { searching s with dbf.readAheadActive := false }) { goal := .object t } hm hop
  exact ⟨h1, h2, h3, h4, h5⟩

/-- A Locate before it that the buffer cannot serve begins a header scan (R97, R98, R103). -/
theorem locateWork_scans {t : Nat} {e : DirEntry} (hr : s.dbf.readRing = []) (ht : t < s.fmc.eod.nextObject)
    (hvalid : s.fmc.directoryValid = true) (he : entryFor t s.fmc.directory = some e) (hm : s.moc.motion = .stopped)
    (hop : s.moc.operation = none) : ScanBegun (.object t) (searching s) (locateWork t s) := by
  unfold locateWork
  dsimp only
  rw [stopSlot_empty t (by exact hr), ite_self]
  unfold locateOnTape
  dsimp only
  rw [if_pos (by simpa using ht)]
  obtain ⟨h1, h2, h3, h4, h5, h6⟩ := beginSearch_dropped (s := { searching s with dbf.readAheadActive := false }) (g := .object t)
    (known := knownPlace t { s with dlp.run.startPosition := s.fmc.position }) hvalid he hm hop
  exact ⟨h1, h2, h3, h4, h5, h6⟩

/-- With nothing in the read ring a Space that has something to pass is made on tape (R102). -/
theorem spaceWork_onTape {kind : SpaceKind} {dir : Dir} {n : Nat} (hn : n ≠ 0)
    (hstart : ¬(kind ≠ .eod ∧ dir = .backward ∧ s.fmc.position = 0)) (hr : s.dbf.readRing = []) :
    spaceWork kind dir n s = spaceOnTape kind dir n { s with dlp.run.startPosition := s.fmc.position } := by
  unfold spaceWork
  dsimp only
  rw [if_neg hn, if_neg hstart, pointerInRing_empty (by exact hr)]
  rfl

theorem spaceWork_toEod {n : Nat} (hn : n ≠ 0) (hr : s.dbf.readRing = []) (hvalid : s.fmc.directoryValid = true)
    (hm : s.moc.motion = .stopped) (hop : s.moc.operation = none) : EodSought (searching s) (spaceWork .eod .forward n s) := by
  rw [spaceWork_onTape hn (fun h => h.1 rfl) hr]
  unfold spaceOnTape
  dsimp only
  rw [if_neg (by simp [hvalid])]
  exact seekEod_sought (s := searching s) _ hm hop

/-- A Space from inside a wrap begins a scan that counts from the Position (R97, R102). -/
theorem spaceWork_scans {kind : SpaceKind} {dir : Dir} {n : Nat} {e : DirEntry} (hn : n ≠ 0) (hk : kind ≠ .eod)
    (hr : s.dbf.readRing = []) (hvalid : s.fmc.directoryValid = true) (hp : s.fmc.position < s.fmc.eod.nextObject)
    (he : entryFor s.fmc.position s.fmc.directory = some e) (hobj : e.object < s.fmc.position)
    (hm : s.moc.motion = .stopped) (hop : s.moc.operation = none) :
    ScanBegun (.space kind dir n s.fmc.position false) (searching s) (spaceWork kind dir n s) := by
  have hbegun := beginSearch_dropped (s := searching s) (g := .space kind dir n s.fmc.position false)
    (known := knownPlace s.fmc.position { s with dlp.run.startPosition := s.fmc.position }) hvalid he hm hop
  rw [spaceWork_onTape hn (fun h => by omega) hr]
  unfold spaceOnTape
  dsimp only
  simp only [dropReadSide_frame]
  rw [if_neg (by simp [hvalid])]
  cases dir with
  | forward =>
    cases kind with
    | eod => exact absurd rfl hk
    | _ =>
      dsimp only
      rw [if_neg (by omega), he]
      dsimp only
      rw [if_neg (by omega)]
      exact hbegun
  | backward =>
    cases kind with
    | eod => exact absurd rfl hk
    | _ =>
      dsimp only
      rw [if_neg (by omega)]
      exact hbegun

/-! ## From the buffer (R58, R59) -/

theorem walkable_subset {d : Slot} (h : d ∈ walkable s) : d ∈ s.dbf.readRing := (List.takeWhile_sublist _).subset h

/-- The slot of a stopping point stands in the ring, without Unrecoverable set (R58). -/
theorem stopSlot_usable {q : Nat} {d : Slot} (h : stopSlot q s = some d) : d.unrecoverable = none ∧ d ∈ s.dbf.readRing := by
  unfold stopSlot at h
  dsimp only at h
  split at h
  · rename_i x hx
    cases h
    have hfound := List.find?_some hx
    obtain ⟨hnone, -⟩ := Bool.and_eq_true_iff.1 hfound
    exact ⟨Option.isNone_iff_eq_none.1 hnone, walkable_subset (List.mem_of_find?_eq_some hx)⟩
  · split at h
    · obtain ⟨hlast, hd⟩ := Option.filter_eq_some_iff.1 h
      obtain ⟨hnone, -⟩ := Bool.and_eq_true_iff.1 hd
      exact ⟨Option.isNone_iff_eq_none.1 hnone, walkable_subset (List.mem_of_getLast? hlast)⟩
    · cases h

/-- The drain pointer stands at a stopping point: the older slots are gone, and the rest of the drive is as it was (R58). -/
structure PointServed (q : Nat) (d : Slot) (s t : State) : Prop where
  fmc : t.fmc = { s.fmc with position := q }
  moc : t.moc = s.moc
  ring : t.dbf.readRing.map (fun x => x.dsn) = (s.dbf.readRing.filter (fun x => d.dsn ≤ x.dsn)).map (fun x => x.dsn)
  ahead : t.dbf.readAheadActive = s.dbf.readAheadActive
  drops : t.dbf.readSideDrops = s.dbf.readSideDrops
  afresh : d.state = .ready → t.cpe.engine = .unpacking ∧ t.cpe.checked = false ∧ ∀ x ∈ t.dbf.readRing, x.dsn = d.dsn → x.state = .draining
  out : t.out = s.out
  dlp : t.dlp = s.dlp

theorem PointServed.of_cpe {q : Nat} {d : Slot} {v w : State} (h : PointServed q d v w) (hv : v = { s with cpe := v.cpe }) :
    PointServed q d s w := by
  rw [hv] at h
  obtain ⟨h1, h2, h3, h4, h5, h6, h7, h8⟩ := h
  exact ⟨h1, h2, h3, h4, h5, h6, h7, h8⟩

theorem syncWindow_otherwise (v : State) : syncWindow v = { v with cpe := (syncWindow v).cpe } := by
  unfold syncWindow
  repeat' split
  all_goals rfl

theorem servePoint_serves (q : Nat) (d : Slot) (s : State) : PointServed q d s (servePoint q d s) := by
  unfold servePoint
  dsimp only
  refine PointServed.of_cpe (v := if (drainingSlot s).any (fun x => decide (x.dsn < d.dsn)) then stopUnpacking s else s) ?_ ?_
  · generalize (if (drainingSlot s).any (fun x => decide (x.dsn < d.dsn)) then stopUnpacking s else s) = v
    split
    case isTrue hready =>
      refine ⟨rfl, rfl, ?_, rfl, rfl, fun _ => ⟨rfl, rfl, ?_⟩, rfl, rfl⟩
      · simp only [startDraining, changeRead, List.map_map]
        refine List.map_congr_left fun x _ => ?_
        dsimp only [Function.comp]
        split <;> rfl
      · intro x hx hdsn
        obtain ⟨y, -, rfl⟩ := List.mem_map.1 hx
        dsimp only at hdsn ⊢
        split
        · rfl
        · rename_i hne
          rw [if_neg hne] at hdsn
          exact absurd hdsn hne
    case isFalse hready =>
      rw [syncWindow_otherwise]
      exact ⟨rfl, rfl, rfl, rfl, rfl, fun h => absurd h hready, rfl, rfl⟩
  · unfold stopUnpacking
    repeat' split
    all_goals rfl

end Sys2Proof.Machine
end

section
/-! SUPPORT. O38: Space and Locate answer what needs no tape, are served from the buffer, or begin their search (R58, R98, R99, R102, R103,
R105). -/

namespace Sys2Proof.Machine

variable {s : State} {tag : Tag} {c : MedCmd}

/-- The command just taken is answered at the stopping point, and the queue is empty (R58, R102). -/
theorem endHead_served {q p : Nat} {d : Slot} {o : OutcomeBlock} {t : State} (hc : Positions c) (h : HeadFree tag s)
    (ht : t = endHead o (servePoint q d { taken tag c s with dlp.run.startPosition := p })) :
    t.fmc = { s.fmc with position := q } ∧ t.moc = s.moc
      ∧ t.dbf.readRing.map (fun x => x.dsn) = (s.dbf.readRing.filter (fun x => d.dsn ≤ x.dsn)).map (fun x => x.dsn)
      ∧ t.dbf.readAheadActive = s.dbf.readAheadActive ∧ t.dbf.readSideDrops = s.dbf.readSideDrops
      ∧ (d.state = .ready → t.cpe.engine = .unpacking ∧ t.cpe.checked = false ∧ ∀ x ∈ t.dbf.readRing, x.dsn = d.dsn → x.state = .draining)
      ∧ t.out = s.out ++ [.reply tag ⟨o, resultsOf c 0 t⟩] ∧ t.dlp.queue = [] := by
  obtain ⟨⟨hup, -⟩, -, hrun, -⟩ := h
  obtain ⟨hfmc, hmoc, hring, hahead, hdrops, hafresh, hout, hdlp⟩ :=
    servePoint_serves q d { taken tag c s with dlp.run.startPosition := p }
  generalize servePoint q d { taken tag c s with dlp.run.startPosition := p } = v at *
  have hq : v.dlp.queue = [⟨tag, c⟩] := by rw [hdlp]; rfl
  have hanswered : v.dlp.run.answered = false := by rw [hdlp]; exact congrArg Run.answered hrun
  have hmute : v.dlp.run.mute = false := by rw [hdlp]; exact congrArg Run.mute hrun
  have hlink : v.dlp.link = .up := by rw [hdlp]; exact hup
  rw [endHead_replies o hq hanswered hmute hlink] at ht
  subst ht
  refine ⟨hfmc, hmoc, hring, hahead, hdrops, hafresh, ?_, rfl⟩
  dsimp only
  rw [hout]
  cases hc <;> rfl

theorem locateWork_served {t : Nat} {d : Slot} (ht : t < s.fmc.eod.nextObject) (hd : stopSlot t s = some d) :
    locateWork t s = endHead .good (servePoint t d { s with dlp.run.startPosition := s.fmc.position }) := by
  have hslot : stopSlot t { s with dlp.run.startPosition := s.fmc.position } = some d := hd
  unfold locateWork
  dsimp only
  rw [if_pos ht, hslot]

theorem spaceWork_served {kind : SpaceKind} {dir : Dir} {n q residue : Nat} {r : Option Reason} {d : Slot} (hn : n ≠ 0)
    (hstart : ¬(kind ≠ .eod ∧ dir = .backward ∧ s.fmc.position = 0)) (hp : pointerInRing s = true)
    (hw : ringWalk kind dir n s = some (q, r, residue)) (hd : stopSlot q s = some d) : spaceWork kind dir n s =
      endHead (spaceOutcome r residue) (servePoint q d { s with dlp.run.startPosition := s.fmc.position }) := by
  have hpoint : pointerInRing { s with dlp.run.startPosition := s.fmc.position } = true := hp
  have hwalk : ringWalk kind dir n { s with dlp.run.startPosition := s.fmc.position } = some (q, r, residue) := hw
  have hslot : stopSlot q { s with dlp.run.startPosition := s.fmc.position } = some d := hd
  unfold spaceWork
  dsimp only
  rw [if_neg hn, if_neg hstart, if_pos hpoint, hwalk]
  dsimp only
  rw [hslot]

/-- With the buffer NEUTRAL nothing keeps the command from its work. -/
theorem worksAtOnce_neutral (h : Passes tag s) (hempty : writeSideEmpty s = true) (hstill : writerBusy s = false)
    (hd : s.dbf.direction = .neutral) : WorksAtOnce tag s :=
  ⟨h, hempty, hstill, by simp [hd], by simp [hd]⟩

/-- A slot in the read ring keeps the direction. -/
theorem worksAtOnce_ring {d : Slot} (h : Passes tag s) (hempty : writeSideEmpty s = true) (hstill : writerBusy s = false)
    (hw : s.dbf.direction ≠ .write) (hd : d ∈ s.dbf.readRing) : WorksAtOnce tag s :=
  ⟨h, hempty, hstill, hw, fun _ => List.ne_nil_of_mem hd⟩

/-- Settles O38: the tests first, then the answers that need no tape, the seeks and scans begun, and the service from the buffer. The one
case that is not a case split of the work is the wait for the tape in READ with no read-side slot, by `finish_settled`. -/
theorem spaceAndLocateSearch : Obligations.SpaceAndLocateSearch := by
  unfold Obligations.SpaceAndLocateSearch
  refine ⟨fun tag kind dir n target s hserved hmed hsus hempty hstill hdir => ?_,
    fun tag kind dir n target d s hserved hmed hsus hempty hdir hvalid => ?_, fun o q rest s hq ha hm => endHead_answered o hq ha hm⟩
  · have hpass : Passes tag s := ⟨hserved, hmed, hsus⟩
    have hworks := worksAtOnce_neutral hpass hempty hstill hdir
    refine ⟨space_none hworks, fun hk hp h0 hn => space_atStart hworks hk hp h0 hn, fun hn => ?_, fun hn => ?_, fun ht => ?_,
      fun ht hv hr hm hop => ⟨locate_works false hworks ht hv, fun hend => ?_, fun e hlt he => ?_⟩,
      fun hn0 hn hv hr hm hop => ⟨⟨space_works false hworks hn (by simp) (.inr (.inr hv)), ?_⟩, fun e hk hp he hobj =>
        ⟨space_works false hworks hn (fun h => hk h.1) (.inr (.inr hv)), ?_⟩⟩,
      fun ht hv hend hm hop => ⟨locate_works true hworks ht hv, ?_⟩, space_noneAnswered hworks⟩
    · exact positions_refused (.space ..) hpass (if_pos hn)
    · exact positions_refused (.space ..) hpass ((if_neg (Nat.not_lt.2 hn)).trans (if_pos ⟨rfl, rfl⟩))
    · exact positions_refused (.locate ..) hpass (if_pos ht)
    · obtain ⟨hseek, hfmc, hout, hdlp, -⟩ := locateWork_atEnd (s := taken tag (.locate target false) s) hend hm hop
      exact ⟨by rw [hdlp], by rw [hfmc]; rfl, hseek, hout⟩
    · obtain ⟨hduty, hgoal, hwork, hfmc, hout, hdlp⟩ := locateWork_scans (s := taken tag (.locate target false) s) hr hlt hv he hm hop
      exact ⟨by rw [hdlp]; rfl, hduty, by rw [hfmc]; rfl, hout, hwork, hgoal⟩
    · obtain ⟨hseek, hfmc, hout, hdlp, -⟩ := spaceWork_toEod (s := taken tag (.space .eod .forward n false) s) hn0 hr hv hm hop
      exact ⟨by rw [hdlp], by rw [hfmc]; rfl, hseek, hout⟩
    · obtain ⟨hduty, hgoal, hwork, hfmc, hout, hdlp⟩ :=
        spaceWork_scans (s := taken tag (.space kind dir n false) s) (dir := dir) hn0 hk hr hv hp he hobj hm hop
      exact ⟨by rw [hdlp]; rfl, hduty, by rw [hfmc]; rfl, hout, hwork, hgoal⟩
    · rw [answerEarly_taken hserved.1.1 hserved.1.2.2.1]
      obtain ⟨-, -, hout, hdlp, hlast⟩ := locateWork_atEnd (t := target) (s := { taken tag (.locate target true) s with
        dlp.run.answered := true
        out := s.out ++ [.reply tag ⟨.good, .position s.fmc.position⟩] }) hend hm hop
      exact ⟨hout, by rw [hdlp]; rfl, by rw [hdlp], by rw [hdlp]; rfl, by rw [hdlp]; rfl, hlast⟩
  · have hpass : Passes tag s := ⟨hserved, hmed, hsus⟩
    refine ⟨fun hstill hlt ht hslot => ?_, fun q r residue hstill h0 hn hback hstart hpoint hwalk hslot => ?_,
      fun hbusy ht => locate_waits hpass hempty hbusy hdir ht⟩
    · obtain ⟨husable, hmem⟩ := stopSlot_usable hslot
      exact ⟨husable, hmem, locate_works false (worksAtOnce_ring hpass hempty hstill hdir hmem) ht hvalid,
        endHead_served (.locate ..) hserved.1 (locateWork_served (s := taken tag (.locate target false) s) hlt hslot)⟩
    · obtain ⟨-, hmem⟩ := stopSlot_usable hslot
      exact ⟨space_works false (worksAtOnce_ring hpass hempty hstill hdir hmem) hn hback (.inr (.inr hvalid)),
        endHead_served (.space ..) hserved.1 (spaceWork_served (s := taken tag (.space kind dir n false) s)
          (Nat.ne_of_gt h0) hstart hpoint hwalk hslot)⟩

end Sys2Proof.Machine
end

section
/-! SUPPORT. The tests that a medium command meets as it begins, in their order (R79, R82, R83, R99, R188). -/

namespace Sys2Proof.Machine

/-- The commands that are tested by the drive, the cartridge and Report Pending before their own table is asked (R79, R82, R83, R99). -/
abbrev IsTested (c : MedCmd) : Prop := writesTape c = true ∨ readsTape c = true ∨ c = .flush

/-- The state in which a command is tested: a Write Records has noted the lengths that it is to receive. -/
def underTest (c : MedCmd) (s : State) : State :=
  match c with
  | .writeRecords _ ls => { s with dlp.run.lengths := ls }
  | _ => s

/-- The tests of a command's own table, after the one on Report Pending. -/
def ownTest (c : MedCmd) (s : State) : Option OutcomeBlock :=
  if writesTape c then writeTest c s else if readsTape c then readTest c s else suspendTest s

section
variable {s : State} {tag : Tag} {c : MedCmd}

@[simp] theorem underTest_frame (c : MedCmd) (s : State) : (underTest c s).frg = s.frg ∧ (underTest c s).cah = s.cah
    ∧ (underTest c s).wch = s.wch := by
  cases c <;> simp [underTest]

/-- In READY, with no media operation of the Library Port in hand, nothing holds a command back. -/
theorem taken_unhindered (h : HeadFree tag s) (c : MedCmd) :
    s.frg.condition ≠ .faulted ∧ waitsForLibrary c (taken tag c s) = false :=
  ⟨by simp [h.1.2.2], waitsForLibrary_none (by exact h.2.2.2) c⟩

/-- A tested command that begins meets its tests: what is done with one that
passes is no part of them. -/
theorem beginCommand_tests (h : HeadFree tag s) (hc : IsTested c) :
    ∃ k, beginCommand tag c (taken tag c s) = tested (ownTest c s) k (underTest c (taken tag c s)) := by
  obtain ⟨hcond, hnow⟩ := taken_unhindered h c
  unfold beginCommand
  rw [if_neg (by exact hcond), hnow]
  cases c
  case thread | unthread | eject | discardBuffer => simp [IsTested, writesTape, readsTape] at hc
  all_goals exact ⟨_, rfl⟩

/-- A command that is refused as it begins is answered as it was taken. -/
theorem endHead_underTest (o : OutcomeBlock) (h : HeadFree tag s) : endHead o (underTest c (taken tag c s)) = answered tag c o s := by
  cases c
  case writeRecords => exact endHead_recordsTaken o h
  all_goals exact endHead_taken h

theorem beginCommand_driveTest {o : OutcomeBlock} (h : HeadFree tag s) (hc : IsTested c) (hd : driveTest s = some o) :
    beginCommand tag c (taken tag c s) = answered tag c o s := by
  obtain ⟨k, hbegin⟩ := beginCommand_tests h hc
  have hdrive : driveTest (underTest c (taken tag c s)) = some o := by simpa [driveTest, faultedBlock] using hd
  rw [hbegin]
  unfold tested
  rw [hdrive]
  exact endHead_underTest o h

/-- Report Pending is answered, and then holds nothing (R76). -/
theorem beginCommand_report {r : Report} (h : HeadFree tag s) (hc : IsTested c) (ht : s.cah.state = .threaded)
    (hr : s.wch.report = some r) : beginCommand tag c (taken tag c s) =
      answered tag c (.sense (reportSense r (0 < r.held))) { s with wch.report := none } := by
  obtain ⟨k, hbegin⟩ := beginCommand_tests h hc
  have hdrive : driveTest (underTest c (taken tag c s)) = none := driveTest_threaded (by simpa using h.1.2.2) (by simpa using ht)
  have hreport : (underTest c (taken tag c s)).wch.report = some r := by simpa using hr
  have hcleared : { underTest c (taken tag c s) with wch.report := none } = underTest c (taken tag c { s with wch.report := none }) := by
    cases c <;> rfl
  rw [hbegin]
  unfold tested
  rw [hdrive, hreport]
  dsimp only
  rw [answerReport, hcleared]
  exact endHead_underTest _ (by exact h)

theorem beginCommand_ownTest {o : OutcomeBlock} (h : HeadFree tag s) (hc : IsTested c) (ht : s.cah.state = .threaded)
    (hr : s.wch.report = none) (ho : ownTest c s = some o) : beginCommand tag c (taken tag c s) = answered tag c o s := by
  obtain ⟨k, hbegin⟩ := beginCommand_tests h hc
  rw [hbegin, ho, tested_refuses (by simpa using h.1.2.2) (by simpa using ht) (by simpa using hr)]
  exact endHead_underTest o h

/-! ## The tests of the three tables -/

theorem ownTest_writes (hc : writesTape c = true) : ownTest c s = writeTest c s := by
  simp [ownTest, hc]

theorem ownTest_reads (hc : readsTape c = true) : ownTest c s = readTest c s := by
  have hw : writesTape c = false := by cases c <;> simp_all [writesTape, readsTape]
  simp [ownTest, hw, hc]

/-- The End of Medium stop stands first in each of the three tables. -/
theorem ownTest_endOfMedium (he : s.wch.endOfMediumStop = true) : ownTest c s = some (endOfMediumBlock (held s)) := by
  unfold ownTest
  split
  · simp [writeTest, suspendTest, he]
  · split
    · simp [readTest, he]
    · simp [suspendTest, he]

theorem suspendTest_suspended (he : s.wch.endOfMediumStop = false) (hm : s.cah.mode = some .writeSuspended) :
    suspendTest s = some (.sense (sense .stWriteSuspended)) := by
  simp [suspendTest, he, hm]

theorem ownTest_suspended (he : s.wch.endOfMediumStop = false) (hm : s.cah.mode = some .writeSuspended)
    (hc : c = .flush ∨ writesTape c = true) : ownTest c s = some (.sense (sense .stWriteSuspended)) := by
  rcases hc with rfl | hc
  · exact suspendTest_suspended he hm
  · rw [ownTest_writes hc, writeTest, suspendTest_suspended he hm]
    rfl

/-- A READ-ONLY tape refuses the commands that write, by the cause. -/
theorem ownTest_protected {cause : ReadOnlyCause} {o : OutcomeBlock} (he : s.wch.endOfMediumStop = false)
    (hm : s.cah.mode = some (.readOnly cause)) (hp : protectTest s = some o) (hc : writesTape c = true) : ownTest c s = some o := by
  have hsuspend : suspendTest s = none := by simp [suspendTest, he, hm]
  rw [ownTest_writes hc, writeTest, hsuspend, hp]
  rfl

/-- Unwritten data held by WRITE SUSPENDED refuses the commands that read. -/
theorem ownTest_unwritten (he : s.wch.endOfMediumStop = false) (hs : suspendedSlots s = true) (hc : readsTape c = true) :
    ownTest c s = some (.sense { sense .stWriteSuspended with retry := true }) := by
  rw [ownTest_reads hc]
  simp [readTest, he, hs]

end

/-- Settles O33. FAULTED ends the command before any table; after that `beginCommand_driveTest`, `beginCommand_report` and
`beginCommand_ownTest` are the three stages of the tests in their order. -/
theorem mediumCommandsMeetTheirTestsInOrder : Obligations.MediumCommandsMeetTheirTestsInOrder := by
  intro tag c s
  refine ⟨fun hfaulted => ?_, fun hfree hc => ⟨fun hcl => ?_, fun hcl ht => ?_, fun r ht hr => beginCommand_report hfree hc ht hr,
    fun ht hr he => beginCommand_ownTest hfree hc ht hr (ownTest_endOfMedium he), fun ht hr he => ⟨fun hm hw => ?_, fun hm hw => ?_,
      fun hm hw => ?_, fun hs hw => beginCommand_ownTest hfree hc ht hr (ownTest_unwritten he hs hw)⟩⟩⟩
  · unfold beginCommand
    rw [if_pos hfaulted]
  · exact beginCommand_driveTest hfree hc (by simp [driveTest, hfree.1.2.2, hcl])
  · exact beginCommand_driveTest hfree hc (by simp [driveTest, hfree.1.2.2, hcl, ht])
  · exact beginCommand_ownTest hfree hc ht hr (ownTest_suspended he hm hw)
  · exact beginCommand_ownTest hfree hc ht hr (ownTest_protected he hm (by simp [protectTest, hm]) hw)
  · refine beginCommand_ownTest hfree hc ht hr ?_
    rcases hm with hm | hm
    all_goals exact ownTest_protected he hm (by simp [protectTest, hm]) hw

end Sys2Proof.Machine
end

section
/-! SUPPORT. Thread, Unthread and Eject as they begin, and the head of the Medium Queue (R76, R136, R141, R142, R145, R171). -/

namespace Sys2Proof.Machine

section
variable {s : State} {tag : Tag}

/-! ## The command is taken (R76, R136, R171) -/

theorem thread_begins (h : HeadFree tag s) (hr : s.wch.report = none) :
    exec (.thread tag) s = .next (finish (takeThread tag (taken tag .thread s))) := by
  obtain ⟨hcond, hnow⟩ := taken_unhindered h .thread
  refine (mediumIn_free h).trans ?_
  simp [beginCommand, hcond, hnow, reportFirst, hr]

theorem unthread_begins (force : Bool) (h : HeadFree tag s) :
    exec (.unthread tag force) s = .next (finish (takeUnthreadCmd tag force (taken tag (.unthread force) s))) := by
  obtain ⟨hcond, hnow⟩ := taken_unhindered h (.unthread force)
  refine (mediumIn_free h).trans ?_
  simp [beginCommand, hcond, hnow]

theorem eject_begins (h : HeadFree tag s) (hr : s.wch.report = none) :
    exec (.eject tag) s = .next (finish (takeEject tag (taken tag .eject s))) := by
  obtain ⟨hcond, hnow⟩ := taken_unhindered h .eject
  refine (mediumIn_free h).trans ?_
  simp [beginCommand, hcond, hnow, reportFirst, hr]

theorem refuseHead_taken {c : MedCmd} (r : Reason) (h : HeadFree tag s) :
    refuseHead r (taken tag c s) = answered tag c (.sense (sense r)) s := endHead_taken h

/-! ## Thread (R136) -/

theorem takeThread_threaded (hs : s.cah.state = .threaded) : takeThread tag s = endHead .good s := by
  simp [takeThread, hs]

theorem takeThread_empty (hs : s.cah.state = .empty) : takeThread tag s = refuseHead .noCartridge s := by
  simp [takeThread, hs]

theorem takeThread_fit (hs : s.cah.state = .negotiated ∨ s.cah.state = .held) (hc : cleaningCartridge s = false)
    (hm : s.cah.mode ≠ some .incompatible) : takeThread tag s = beginThread (.link tag) (setPhase .threading s) := by
  rcases hs with hs | hs <;> simp [takeThread, hs, hc, hm]

theorem takeThread_incompatible (hs : s.cah.state = .negotiated ∨ s.cah.state = .held) (hc : cleaningCartridge s = false)
    (hm : s.cah.mode = some .incompatible) : takeThread tag s = refuseHead .incompatibleMedium s := by
  rcases hs with hs | hs <;> simp [takeThread, hs, hc, hm]

/-- A thread begins with the push of SEAT LOCK, the first stage, where none is on the stack (R135, R136). -/
theorem beginThread_seatLock (who : Orderer) (h : s.cah.stack = []) : beginThread who s = { s with
    cah.state := .threading
    cah.mediaOp := some { kind := .thread, orderer := who, force := false }
    cah.unwind := none
    cah.stageWork := some { stage := .seatLock, push := true, attempt := 1, timer := 0 } } := by
  simp [beginThread, pushNext, h, stageOrder, beginPush]

/-! ## Unthread (R141, R142) -/

theorem takeUnthreadCmd_empty (force : Bool) (hs : s.cah.state = .empty) :
    takeUnthreadCmd tag force s = refuseHead .noCartridge s := by
  simp [takeUnthreadCmd, hs]

/-- With no tape threaded there is nothing to unthread, and with Force a report is cleared. -/
theorem takeUnthreadCmd_unthreaded (force : Bool) (hs : s.cah.state = .seated ∨ s.cah.state = .negotiated ∨ s.cah.state = .held) :
    takeUnthreadCmd tag force s = endHead .good (clearIf force s) := by
  rcases hs with hs | hs | hs <;> simp [takeUnthreadCmd, hs]

/-- On a threaded tape with nothing unwritten an Unthread without Force waits only for the writer (R112, R141). -/
theorem takeUnthreadCmd_clean (hs : s.cah.state = .threaded) (hr : s.wch.report = none) (he : s.wch.endOfMediumStop = false)
    (hslots : suspendedSlots s = false) (hempty : writeSideEmpty s = true) (hd : s.dbf.direction = .neutral) :
    takeUnthreadCmd tag false s = unthreadWhenFree .unthread tag s := by
  simp [takeUnthreadCmd, hs, takeUnthread, hr, he, hslots, takeRead, hempty, settleDirection, hd]

theorem takeUnthreadCmd_force (hs : s.cah.state = .threaded) : takeUnthreadCmd tag true s =
    if writerBusy (discardAndClear s) then setPhase .waitFlush (discardAndClear s)
    else unthreadFromHead .unthread tag true (discardAndClear s) := by
  simp [takeUnthreadCmd, hs]

/-- The unthread of THREADED takes the cartridge to UNTHREADING and drops the read side, uncounted (R142). -/
theorem unthreadFromHead_frame (kind : MediaKind) (tag : Tag) (force : Bool) (s : State) :
    let t := unthreadFromHead kind tag force s
    t.cah.state = .unthreading ∧ t.cah.mediaOp = some { kind := kind, orderer := .link tag, force := force }
      ∧ t.dlp.run.phase = .unthreading ∧ t.dbf.readRing = [] ∧ t.dbf.readSideDrops = s.dbf.readSideDrops
      ∧ t.dbf.writeRing = s.dbf.writeRing ∧ t.cpe.intake = s.cpe.intake ∧ t.fmc = s.fmc ∧ t.wch = s.wch ∧ t.out = s.out := by
  simp [unthreadFromHead, beginUnthread, startSeek]

/-- A tape at rest with no operation begins the seek to BOT (R112, R142). -/
theorem unthreadFromHead_seeks (kind : MediaKind) (force : Bool) (hm : s.moc.motion = .stopped) (hop : s.moc.operation = none) :
    (unthreadFromHead kind tag force s).moc.operation = some ⟨.unthreadRewind, some botPlace, [.seek], false⟩ := by
  unfold unthreadFromHead beginUnthread startSeek
  rw [request_stopped _ (by simpa using hm) (by simpa using hop)]
  rfl

/-- An Unthread with Force on a threaded tape: the write side and its report are gone, whether it waits for the EOD frame or unthreads
(R60, R76, R141). -/
theorem forcedUnthread_drops (u : State) (hu : WriteSideDropped u) (hr : u.wch.report = none) :
    let t := if writerBusy u then setPhase .waitFlush u else unthreadFromHead .unthread tag true u
    t.dbf.writeRing = [] ∧ t.wch.report = none ∧ t.cpe.intake = [] ∧ t.fmc = u.fmc
      ∧ (writerBusy u = false → t.cah.state = .unthreading ∧ t.dlp.run.phase = .unthreading) := by
  obtain ⟨hstate, -, hphase, -, -, hring, hintake, hfmc, hwch, -⟩ := unthreadFromHead_frame .unthread tag true u
  dsimp only
  split
  · next hbusy => exact ⟨hu.ring, hr, hu.intake, rfl, by simp [hbusy]⟩
  · exact ⟨hring.trans hu.ring, by rw [hwch, hr], hintake.trans hu.intake, hfmc, fun _ => ⟨hstate, hphase⟩⟩

/-! ## Eject (R145) -/

theorem takeEject_uncustodied (hh : s.cah.holder = .library) : takeEject tag s = refuseHead .noCustody s := by
  simp [takeEject, hh]

theorem takeEject_pushes (hh : s.cah.holder = .link) (hs : s.cah.state = .negotiated ∨ s.cah.state = .held) : takeEject tag s =
    beginEject (setPhase .ejecting { s with cah.mediaOp := some { kind := .eject, orderer := .link tag, force := false } }) := by
  rcases hs with hs | hs <;> simp [takeEject, hh, hs]

/-! ## The head of the queue (R171) -/

theorem queueHeadBegins_idle (h : s.dlp.run.phase ≠ .notBegun ∨ s.dlp.queue = []) : exec .queueHeadBegins s = .next s := by
  change execQueueHeadBegins s = _
  unfold execQueueHeadBegins
  split
  · next hp => simp [h.resolve_left (not_not_intro hp)]
  · rfl

theorem queueHeadBegins_begins {q : QEntry} {rest : List QEntry} (hp : s.dlp.run.phase = .notBegun) (hq : s.dlp.queue = q :: rest) :
    exec .queueHeadBegins s = .next (finish (beginCommand q.tag q.cmd s)) := by
  simp [exec, execQueueHeadBegins, hp, hq, beginHead]

end

/-- Settles O40. The answers follow the table of each command by the cartridge state; the unthreads that begin are
`unthreadFromHead_frame`, after the discard of the write side where Force is given. -/
theorem mediaCommandsBegin : Obligations.MediaCommandsBegin := by
  refine ⟨fun tag force s h hr => ⟨fun hs => ?_, fun hs => ?_, fun hs hc hm hst => ?_, fun hs hc hm => ?_, fun hs => ?_, fun hs => ?_,
      fun hs he hslots hempty hbusy hd hmo hop => ?_, fun hs hd hempty he hslots hbusy => ?_, fun hh => ?_, fun hh hs => ?_⟩,
    fun tag s h => ⟨fun hs => ?_, fun hs => ?_⟩, fun s => ⟨queueHeadBegins_idle, fun q rest => queueHeadBegins_begins⟩⟩
  · rw [thread_begins h hr, takeThread_threaded (by exact hs), endHead_taken h]
  · rw [thread_begins h hr, takeThread_empty (by exact hs), refuseHead_taken _ h]
  · rw [thread_begins h hr, takeThread_fit (by exact hs) (by exact hc) (by exact hm), beginThread_seatLock _ (by exact hst)]
    rfl
  · rw [thread_begins h hr, takeThread_incompatible (by exact hs) (by exact hc) (by exact hm), refuseHead_taken _ h]
  · have hsame : clearIf force (taken tag (.unthread force) s) = taken tag (.unthread force) s := by
      cases force
      · rfl
      · simp [clearIf, taken, heard, ← hr]
    rw [unthread_begins force h, takeUnthreadCmd_unthreaded force (by exact hs), hsame, endHead_taken h]
  · rw [unthread_begins force h, takeUnthreadCmd_empty force (by exact hs), refuseHead_taken _ h]
  · obtain ⟨hstate, hmedia, hphase, hring, hdrops, -, -, hfmc, -, hout⟩ :=
      unthreadFromHead_frame .unthread tag false (taken tag (.unthread false) s)
    refine ⟨?_, hstate, hphase, hring, hdrops, hmedia, unthreadFromHead_seeks _ _ (by exact hmo) (by exact hop), hfmc, hout⟩
    rw [unthread_begins false h, takeUnthreadCmd_clean (by exact hs) (by exact hr) (by exact he) (by exact hslots) (by exact hempty)
      (by exact hd), unthreadWhenFree, if_neg (by simpa [writerBusy] using hbusy)]
  · rw [unthread_begins false h, takeUnthreadCmd_clean (by exact hs) (by exact hr) (by exact he) (by exact hslots) (by exact hempty)
      (by exact hd), unthreadWhenFree, if_pos (by exact hbusy)]
  · rw [eject_begins h hr, takeEject_uncustodied (by exact hh), refuseHead_taken _ h]
  · rw [eject_begins h hr, takeEject_pushes (by exact hh) (by exact hs)]
    rfl
  · rw [unthread_begins true h, takeUnthreadCmd_unthreaded true (by exact hs)]
    exact congrArg _ (congrArg finish (endHead_taken (s := { s with wch.report := none }) (by exact h)))
  · obtain ⟨hring, hreport, hintake, hfmc, hbegun⟩ := forcedUnthread_drops (tag := tag)
      (discardAndClear (taken tag (.unthread true) s)) (discardAndClear_drops _) rfl
    refine ⟨?_, hring, hreport, hintake, fun hempty => ?_, hbegun⟩
    · rw [unthread_begins true h, takeUnthreadCmd_force (by exact hs)]
    · refine (congrArg Fmc.discarded hfmc).trans ?_
      change (discardWriteSide (taken tag (.unthread true) s)).fmc.discarded = _
      rw [discardWriteSide_fmc _ (by exact hempty)]
      simp [held]

end Sys2Proof.Machine
end

section
/-! SUPPORT. A motion fault while a Write Records receives its first bytes (R35, R121). -/

namespace Sys2Proof.Machine

/-- The tape ramps up for the writer, with one data set closed; the Write Records at the head has part of its record in the staging
buffers, and the data set open for it has no entry as yet. -/
def rampsWhileReceiving : State := { threadedAtBot with
  moc.motion := .ramping
  moc.restsFor := none
  moc.operation := some ⟨.writing, some ⟨0, 1000000⟩, [.ramp (some 6)], false⟩
  wch.writer := .starting
  wch.nextPlace := ⟨0, 1000000⟩
  dbf.direction := .write
  dbf.writeRing := [{ state := .pending, dsn := 0, firstObject := some 0, entries := [.filemark] }, { state := .filling, dsn := 1 }]
  dlp.tags := [2]
  dlp.queue := [⟨2, .writeRecords false [5]⟩]
  dlp.run := { phase := .receiving, lengths := [5], got := 2 }
  cpe.intake := [.record 2 5 2 0 none false false] }

/-- The fault ends the command, and with its partial record the open data set that is left with no entry is dropped (R35). -/
theorem motionFault_rampsWhileReceiving : timedOperation rampsWhileReceiving = true
    ∧ (motionFault .reelDrive .overrun rampsWhileReceiving).dbf.writeRing.length = 1 := by decide

/-- Refutes O47: the overrun of the ramp is a motion fault of the REEL DRIVE that does not keep the write ring of
`rampsWhileReceiving`, from which the open data set goes with the command that the fault ends. -/
theorem not_restTensionAndOverrun : ¬ Obligations.RestTensionAndOverrun := by
  intro h
  obtain ⟨-, -, -, -, -, -, -, -, -, -, hFault⟩ := h rampsWhileReceiving
  obtain ⟨-, -, -, -, -, -, -, -, -, -, -, -, -, -, -, -, -, -, -, hRing⟩ := hFault .overrun
  obtain ⟨-, hLength⟩ := motionFault_rampsWhileReceiving
  rw [hRing] at hLength
  exact absurd hLength (by decide)

end Sys2Proof.Machine
end

section
/-! SUPPORT. The direction in which the run to BOT of a recovery ramps up (R8, R115, R184). -/

namespace Sys2Proof.Machine

/-- The Event notice leaves the Motion Controller. -/
theorem sendNotices_moc (s : State) : (sendNotices s).moc = s.moc := by
  unfold sendNotices
  split <;> rfl

/-- Where nothing is to be taken up, the Motion Controller stays as a step's own work leaves it. -/
theorem finish_calm_moc {s : State} (h : Calm s) : (finish s).moc = s.moc := by
  rw [calmStateOnlySendsNotices s h, sendNotices_moc]

/-- A threaded tape is recovered (R184): on wrap 0 it backhitches before the ramp with which its run to BOT goes on. -/
def backhitchesInRecovery : State := { threadedAtBot with
  frg.condition := .recovering
  cah.state := .unthreading
  cah.recovering := true
  moc.motion := .backhitch
  moc.operation := some ⟨.recoveryRewind, some botPlace, [.backhitch, .ramp (some 1), .slowRun], false⟩ }

/-- What O48 has BACKHITCH_DONE leave there, the end of the step apart: the ramp in the direction of wrap 0, toward high LPOS. -/
def rampsAlongWrap : State := { backhitchesInRecovery with
  moc.motion := .ramping
  moc.step := 0
  moc.phaseTime := 0
  moc.lpos := some 1000000
  moc.restsFor := none
  moc.towardHigh := true
  moc.operation := some ⟨.recoveryRewind, some botPlace, [.ramp (some 1), .slowRun], false⟩
  moc.watch := 0 }

theorem backhitchEnds_inRecovery_calm : Calm (backhitchEnds 1000000 backhitchesInRecovery) := by constructor <;> decide

theorem rampsAlongWrap_calm : Calm rampsAlongWrap := by constructor <;> decide

/-- The run to BOT of a recovery goes toward low LPOS, against the direction of wrap 0 (R8, R184). -/
theorem backhitchEnds_inRecovery_towardHigh : (backhitchEnds 1000000 backhitchesInRecovery).moc.towardHigh = false := by decide

/-- Refutes O48: the statement's ramp from rest runs in the direction of the wrap for every work but a scan, and that of a recovery's run
to BOT runs toward low LPOS on every wrap, as the ramp of `backhitchesInRecovery` does on wrap 0. -/
theorem not_motionPhasesEndAndFollow : ¬ Obligations.MotionPhasesEndAndFollow := by
  intro h
  obtain ⟨-, -, hBackhitch, -⟩ :=
    h 1000000 .recoveryRewind (some botPlace) (some 1) [.slowRun] false backhitchesInRecovery rfl rfl
  have hSame : finish (backhitchEnds 1000000 backhitchesInRecovery) = finish rampsAlongWrap :=
    next_inj (hBackhitch rfl (by decide) (by decide))
  have hMoc := congrArg State.moc hSame
  rw [finish_calm_moc backhitchEnds_inRecovery_calm, finish_calm_moc rampsAlongWrap_calm] at hMoc
  have hLow := backhitchEnds_inRecovery_towardHigh
  rw [hMoc] at hLow
  exact absurd hLow (by decide)

end Sys2Proof.Machine
end

section
/-! SUPPORT. The Speed Governor's evaluation (R111, R125 to R127). -/

namespace Sys2Proof.Machine

variable {g : Sgv} {u c bytes t cap now k : Nat}

/-! ## The comparison (R127) -/

theorem choose_same (h : k = g.target) : choose k g = { g with pendingTarget := none, pendingCount := 0 } := if_pos h

theorem choose_second (h : k ≠ g.target) (hp : g.pendingTarget = some k) (hn : g.pendingCount = 1) :
    choose k g = { g with target := k, pendingTarget := none, pendingCount := 0 } := by
  rw [choose, if_neg h, if_pos ⟨hp, hn⟩]

theorem choose_first (h : k ≠ g.target) (hp : ¬(g.pendingTarget = some k ∧ g.pendingCount = 1)) :
    choose k g = { g with pendingTarget := some k, pendingCount := 1 } := by
  rw [choose, if_neg h, if_neg hp]

/-- The comparison reaches the target and the Pending Target alone. -/
@[simp] theorem choose_figures (k : Nat) (g : Sgv) : (choose k g).crs = g.crs ∧ (choose k g).hs = g.hs := by
  unfold choose
  repeat' split
  all_goals exact ⟨rfl, rfl⟩

theorem choose_target_or (k : Nat) (g : Sgv) : (choose k g).target = g.target ∨ (choose k g).target = k := by
  unfold choose
  repeat' split
  · exact .inl rfl
  · exact .inr rfl
  · exact .inl rfl

/-- Settles O54: the three cases of the comparison, and the second evaluation meets what the first one left. -/
theorem targetChangesAfterTwoEvaluations : Obligations.TargetChangesAfterTwoEvaluations := by
  intro k g
  refine ⟨choose_same, choose_second, choose_first, fun h hp => ?_, fun cap hk hg => ?_⟩
  · rw [choose_first h fun hpending => hp hpending.1]
    exact congrArg Sgv.target (choose_second (g := { g with pendingTarget := some k, pendingCount := 1 }) h rfl rfl)
  · rcases choose_target_or k g with e | e
    · rw [e]; exact hg
    · rw [e]; exact hk

/-! ## The stages (R125, R126) -/

/-- The governor after the ratio and the rate stage of an evaluation (R125). -/
def figuresTaken (u c bytes t now : Nat) (g : Sgv) : Sgv :=
  { g with mark := now, crs := ratioStage g.crs u c, hs := rateStage g.hs bytes t }

/-- An evaluation with Hs Unknown ends after its figures (R126). -/
theorem evaluateWith_unknown (h : rateStage g.hs bytes t = none) :
    evaluateWith u c bytes t cap now g = figuresTaken u c bytes t now g := by
  simp [evaluateWith, h, figuresTaken]

/-- An evaluation with Hs known compares the lowest step for the required rate, within the cap (R126). -/
theorem evaluateWith_known {hs : Nat} (h : rateStage g.hs bytes t = some hs) : evaluateWith u c bytes t cap now g =
    choose (min (lowestStep (requiredRate hs (ratioStage g.crs u c))) cap) (figuresTaken u c bytes t now g) := by
  simp [evaluateWith, h, figuresTaken]

/-- An evaluation leaves the figures of its first two stages. -/
@[simp] theorem evaluateWith_figures (u c bytes t cap now : Nat) (g : Sgv) :
    (evaluateWith u c bytes t cap now g).crs = ratioStage g.crs u c
      ∧ (evaluateWith u c bytes t cap now g).hs = rateStage g.hs bytes t := by
  cases h : rateStage g.hs bytes t with
  | none => rw [evaluateWith_unknown h]; exact ⟨rfl, h⟩
  | some hs => rw [evaluateWith_known h]; simp [figuresTaken, h]

theorem rateStage_short (hs : Option Nat) (bytes : Nat) (h : t < 1000) : rateStage hs bytes t = hs := if_neg (Nat.not_le.2 h)

theorem rateStage_unknown (bytes : Nat) (h : 1000 ≤ t) : rateStage none bytes t = some (min 320000 (bytes * 1000 / t)) := if_pos h

theorem rateStage_known (old bytes : Nat) (h : 1000 ≤ t) :
    rateStage (some old) bytes t = some ((old + min 320000 (bytes * 1000 / t)) / 2) := if_pos h

/-- Settles O52: the evaluation leaves the figures of `ratioStage` and `rateStage`, and both of these keep their ranges. -/
theorem smoothedFiguresFollowRatioAndRate : Obligations.SmoothedFiguresFollowRatioAndRate := by
  intro u c bytes t cap now g g'
  obtain ⟨hcrs, hhs⟩ := evaluateWith_figures u c bytes t cap now g
  refine ⟨hcrs, fun ht => hhs.trans ?_, fun ht => hhs.trans (rateStage_short _ _ ht), fun hlow hhigh => ?_, fun hle h hh => ?_⟩
  · cases g.hs with
    | none => exact rateStage_unknown bytes ht
    | some old => exact rateStage_known old bytes ht
  · rw [hcrs]
    exact ratioStage_range ⟨hlow, hhigh⟩
  · exact rateStage_le hle h (hhs.symm.trans hh)

/-! ## The demand and the lowest step (R111, R126) -/

/-- The demand is a ceiling: the native rates that carry the host rate are those not below it. -/
theorem demandOf_le_iff {hs crs d : Nat} (h : 0 < crs) : demandOf hs crs ≤ d ↔ hs * 256 ≤ d * crs := by
  rw [demandOf, ← Nat.ceilDiv_eq_add_pred_div, ceilDiv_le_iff_le_mul h, Nat.mul_comm crs]

theorem demandOf_zero (crs : Nat) : demandOf 0 crs = 0 := by
  rcases Nat.eq_zero_or_pos crs with rfl | h
  · rfl
  · exact Nat.le_zero.1 ((demandOf_le_iff h).2 (by simp))

/-- The steps below the lowest step do not carry the required rate. -/
theorem nativeRate_below_lowestStep {req k : Nat} (h1 : 1 ≤ k) (hk : k < lowestStep req) : nativeRate k < req := by
  have h6 := (lowestStep_range req).2
  have hcases : k = 1 ∨ k = 2 ∨ k = 3 ∨ k = 4 ∨ k = 5 := by omega
  unfold lowestStep at hk
  rcases hcases with rfl | rfl | rfl | rfl | rfl <;> (simp only [nativeRate]; split_ifs at hk <;> omega)

/-- The lowest step carries the required rate, unless it is 6. -/
theorem lowestStep_carries (req : Nat) : req ≤ nativeRate (lowestStep req) ∨ lowestStep req = 6 := by
  unfold lowestStep
  split_ifs with h
  case neg => exact .inr rfl
  all_goals exact .inl ‹_›

/-- Settles O53: the demand is the ceiling of Hs x 256 / CRs, and the candidate is compared only where Hs is known. -/
theorem candidateIsTheLowestStepWithinTheCap : Obligations.CandidateIsTheLowestStepWithinTheCap := by
  refine ⟨fun hs crs h => ⟨⟨(demandOf_le_iff h).1 le_rfl, fun d => (demandOf_le_iff h).2⟩, rfl⟩, fun req => ?_,
    fun u c bytes t cap now g => ?_, fun crs => ⟨demandOf_zero crs, ?_⟩⟩
  · exact ⟨(lowestStep_range req).1, (lowestStep_range req).2, fun k => nativeRate_below_lowestStep, lowestStep_carries req⟩
  · exact ⟨figuresTaken u c bytes t now g, rfl, rfl, rfl, rfl, rfl, evaluateWith_unknown, fun hs => evaluateWith_known⟩
  · rw [requiredRate, demandOf_zero]
    rfl

end Sys2Proof.Machine
end

section
/-! SUPPORT. A servo mark near the aim of the run to BOT of a recovery (R110, R118, R184). -/

namespace Sys2Proof.Machine

/-- A threaded tape is recovered (R184): its run to BOT streams at step 1 toward low LPOS. -/
def runsToBotInRecovery : State := { backhitchesInRecovery with
  moc.motion := .streaming
  moc.step := 1
  moc.restsFor := none
  moc.towardHigh := false
  moc.operation := some ⟨.recoveryRewind, some botPlace, [.slowRun], false⟩ }

/-- What O49 has a SERVO_MARK at BOT leave there, the end of the step apart: the position taken, and the tape still streaming. -/
def streamsPastBot : State := { runsToBotInRecovery with
  moc.wrap := some 0
  moc.lpos := runsToBotInRecovery.moc.lpos.map (fun _ => 1000000)
  moc.drift := 0
  moc.watch := 0 }

theorem markRead_inRecovery_calm : Calm (markRead 0 1000000 runsToBotInRecovery) := by constructor <;> decide

theorem streamsPastBot_calm : Calm streamsPastBot := by constructor <;> decide

/-- With the position taken, the aim of the run is near enough for its ramp down (R110, R184). -/
theorem markRead_inRecovery_motion : (markRead 0 1000000 runsToBotInRecovery).moc.motion = .ramping := by decide

/-- Refutes O49: outside a mark run and a seek, the statement's SERVO_MARK sets the position and leaves the motion, and one that finds the
run to BOT of `runsToBotInRecovery` at its aim begins the ramp down. -/
theorem not_servoMarksAndTheirLoss : ¬ Obligations.ServoMarksAndTheirLoss := by
  intro h
  obtain ⟨-, -, hMark, -⟩ := h 0 1000000 runsToBotInRecovery
  have hSame : finish (markRead 0 1000000 runsToBotInRecovery) = finish streamsPastBot :=
    next_inj (hMark (by decide) (by decide) (by decide) rfl)
  have hMoc := congrArg State.moc hSame
  rw [finish_calm_moc markRead_inRecovery_calm, finish_calm_moc streamsPastBot_calm] at hMoc
  have hRamping := markRead_inRecovery_motion
  rw [hMoc] at hRamping
  exact absurd hRamping (by decide)

end Sys2Proof.Machine
end

section
/-! SUPPORT. The Thread Stack: pushes, attempts that run out of time, pops, and the stack emptied (R118, R135 to R145). -/

namespace Sys2Proof.Machine

/-- A stage begins to be pushed or popped, at its first attempt. -/
abbrev stageBegun (st : Stage) (push : Bool) : StageWork := { stage := st, push := push, attempt := 1, timer := 0 }

section
variable {s : State} {st st' : Stage} {below : List Stage} {n k : Nat}

/-! ## No stage in progress (log 2) -/

theorem stageWork_none (h : s.cah.stageWork = none) :
    stagePushed s = s ∧ stageTimedOut s = s ∧ stagePopped s = s ∧ stagePopFailed s = s := by
  simp [stagePushed, stageTimedOut, stagePopped, stagePopFailed, h]

/-! ## Pushes (R135) -/

theorem beginPush_stage (n : Nat) (h : st ≠ .acquire) :
    beginPush st n s = { s with cah.stageWork := some { stage := st, push := true, attempt := n } } := if_neg h

/-- An attempt of Acquire runs the tape at step 1 for its marks; one that still moves comes to rest first (R118, R135). -/
theorem beginPush_acquire (n : Nat) (s : State) : beginPush .acquire n s = { s with
    cah.stageWork := some { stage := .acquire, push := true, attempt := n }
    moc.motion := .ramping
    moc.operation := some ⟨.acquiring, none,
      (if s.moc.motion.moving then [.ramp (some 0)] else []) ++ [.ramp (some 1), .markRun, .ramp (some 0)], false⟩
    moc.phaseTime := 0
    moc.restsFor := none
    moc.marks := 0
    moc.towardHigh := true
    moc.watch := 0 } := by
  cases h : s.moc.motion.moving <;> simp [beginPush, beginAcquire, enterPhase, h]

/-- A push that succeeds below Acquire puts its stage on the stack, and the next one begins. -/
theorem stagePushed_next (hw : s.cah.stageWork = some ⟨st, true, n, k⟩) (ha : st ≠ .acquire)
    (hnext : stageOrder.drop (s.cah.stack.length + 1) = st' :: below) :
    stagePushed s =
      let u := { s with cah.stack := s.cah.stack ++ [st], cah.stageWork := none }
      beginPush st' 1 (if st = .tension then comeToRest u else u) := by
  have hlen : s.cah.stack.length + 1 < 6 := by
    by_contra hge
    rw [List.drop_eq_nil_of_le (Nat.le_of_not_lt hge)] at hnext
    cases hnext
  by_cases ht : st = .tension <;> simp [stagePushed, hw, ha, ht, hlen, pushNext, hnext]

theorem stagePushed_unacquired (hw : s.cah.stageWork = some ⟨.acquire, true, n, k⟩) (ha : acquired s = false) : stagePushed s = s := by
  simp [stagePushed, hw, ha]

/-! ## Attempts that run out of time (R135, R138) -/

theorem stageTimedOut_again (hw : s.cah.stageWork = some ⟨st, true, n, k⟩) (hr : s.cah.recovering = false) (hn : n < stageAttempts st) :
    stageTimedOut s = beginPush st (n + 1) s := by
  simp [stageTimedOut, hw, hr, hn]

/-- The last attempt of a stage fails the thread. -/
theorem stageTimedOut_last (hw : s.cah.stageWork = some ⟨st, true, n, k⟩) (hr : s.cah.recovering = false) (hn : stageAttempts st ≤ n)
    (hc : s.cah.cleaningStep = none) :
    stageTimedOut s = unwindStack (.threadFailed st) (stopAcquire (latch .threadFailed s)) := by
  simp [stageTimedOut, hw, hr, Nat.not_lt.2 hn, hc]

theorem stopAcquire_acquire (hw : s.cah.stageWork = some ⟨.acquire, true, n, k⟩) : stopAcquire s = stopTape s := by
  simp [stopAcquire, acquireStage, hw]

theorem stopAcquire_other (hw : s.cah.stageWork = some ⟨st, true, n, k⟩) (ha : st ≠ .acquire) : stopAcquire s = s := by
  simp [stopAcquire, acquireStage, hw, ha]

theorem stopTape_at_rest (hm : s.moc.motion = .stopped) (ho : s.moc.operation = none) :
    stopTape s = { s with moc.waiting := none } := by
  simp [stopTape, hm, ho]

/-- A tape in a mark run ramps to 0 at once (R114). -/
theorem stopTape_markRun {w : Work} {p : Option Place} {rest : List Phase} {re : Bool}
    (ho : s.moc.operation = some ⟨w, p, .markRun :: rest, re⟩) :
    (stopTape s).moc.operation = some ⟨.stopping, none, [.ramp (some 0)], false⟩ := by
  simp [stopTape, ho, enterPhase]

/-! ## Pops (R135, R138, R142) -/

theorem beginPop_top (hs : s.cah.stack = below ++ [st]) : beginPop s = { s with cah.stageWork := some (stageBegun st false) } := by
  simp [beginPop, hs]

/-- Pops begin at once where the tape rests. -/
theorem unwindStack_at_rest (u : Unwind) (hs : s.cah.stack = below ++ [st]) (ho : s.moc.operation = none) :
    unwindStack u s = { s with cah.unwind := some u, cah.stageWork := some (stageBegun st false) } := by
  simp [unwindStack, beginPop, hs, ho]

/-- Pops wait for a tape that moves (log 22). -/
theorem unwindStack_moving (u : Unwind) (hs : s.cah.stack = below ++ [st]) (ho : s.moc.operation.isSome = true) :
    unwindStack u s = { s with cah.unwind := some u, cah.stageWork := none } := by
  simp [unwindStack, hs, ho]

/-- The unwinding of a stack records its reason; the tape, the events and the cartridge's place stay as they are. -/
theorem unwindStack_frame (u : Unwind) (hs : s.cah.stack = below ++ [st]) :
    (unwindStack u s).cah.unwind = some u ∧ (unwindStack u s).cah.state = s.cah.state ∧ (unwindStack u s).cah.stack = s.cah.stack
      ∧ (unwindStack u s).moc = s.moc ∧ (unwindStack u s).events = s.events := by
  cases ho : s.moc.operation with
  | none => rw [unwindStack_at_rest u hs ho]; exact ⟨rfl, rfl, rfl, rfl, rfl⟩
  | some op => rw [unwindStack_moving u hs (by rw [ho]; rfl)]; exact ⟨rfl, rfl, rfl, rfl, rfl⟩

/-- A pop that succeeds takes its stage off, and the one below begins to be popped. -/
theorem stagePopped_next (hw : s.cah.stageWork = some ⟨st, false, n, k⟩) (ht : st ≠ .tension) (hs : s.cah.stack = below ++ [st', st]) :
    stagePopped s = { s with cah.stack := below ++ [st'], cah.stageWork := some (stageBegun st' false) } := by
  have hdrop : s.cah.stack.dropLast = below ++ [st'] := by rw [hs, List.append_cons, List.dropLast_concat]
  simp [stagePopped, hw, ht, hdrop, beginPop]

/-- The pop of Tension leaves the tape RELAXED. -/
theorem stagePopped_tension (hw : s.cah.stageWork = some ⟨.tension, false, n, k⟩) (hs : s.cah.stack = below ++ [st', .tension]) :
    stagePopped s = { s with
      cah.stack := below ++ [st']
      cah.stageWork := some (stageBegun st' false)
      moc.motion := .relaxed
      moc.step := 0
      moc.operation := none
      moc.waiting := none
      moc.restsFor := none } := by
  have hdrop : s.cah.stack.dropLast = below ++ [st'] := by rw [hs, List.append_cons, List.dropLast_concat]
  simp [stagePopped, hw, hdrop, beginPop]

theorem stagePopped_last (hw : s.cah.stageWork = some ⟨st, false, n, k⟩) (ht : st ≠ .tension) (hs : s.cah.stack = [st]) :
    stagePopped s = stackEmptied { s with cah.stack := [], cah.stageWork := none } := by
  simp [stagePopped, hw, ht, hs]

@[simp] theorem strandTrail_frame (s : State) : (strandTrail s).moc = s.moc ∧ (strandTrail s).cah = s.cah := by
  unfold strandTrail
  split <;> exact ⟨rfl, rfl⟩

/-- The last ramp of a stop leaves the tape at rest, and pops that wait for that begin (R114, R138). -/
theorem rampEnds_stopping (l : Nat) (ho : s.moc.operation = some ⟨.stopping, none, [.ramp (some 0)], false⟩) :
    rampEnds l s = beginWaiting (popAtRest (comeToRest
      { strandTrail { s with moc.step := 0, moc.lpos := knownLpos l s } with moc.operation := none, moc.work := .stopping })) := by
  simp [rampEnds, runningPhase, ho, phaseEnds, advance, afterMotion, restedAfter, comeToRest]

theorem beginWaiting_none (h : s.moc.waiting = none) : beginWaiting s = s := by
  unfold beginWaiting
  rw [h]
  split
  · contradiction
  · rfl

theorem popAtRest_pops (hu : s.cah.unwind.isSome = true) (hw : s.cah.stageWork = none) (ho : s.moc.operation = none)
    (hs : s.cah.stack = below ++ [st]) : popAtRest s = { s with cah.stageWork := some (stageBegun st false) } := by
  rw [popAtRest, if_pos ⟨hu, hw, ho⟩, beginPop_top hs]

/-- A stop that ends while pops wait leaves the tape at rest, and the first pop begins (R114, R138). -/
theorem rampEnds_pops {u : Unwind} (l : Nat) (hu : s.cah.unwind = some u) (hw : s.cah.stageWork = none)
    (hs : s.cah.stack = below ++ [st]) (ho : s.moc.operation = some ⟨.stopping, none, [.ramp (some 0)], false⟩)
    (hq : s.moc.waiting = none) :
    (rampEnds l s).moc.motion = .stopped ∧ (rampEnds l s).moc.step = 0
      ∧ (rampEnds l s).cah.stageWork = some (stageBegun st false) := by
  rw [rampEnds_stopping l ho, popAtRest_pops (below := below) (st := st) (by simp [hu]) (by simpa using hw) rfl (by simpa using hs),
    beginWaiting_none (by simpa using hq)]
  exact ⟨rfl, rfl, rfl⟩

/-! ## The stack emptied (R138, R142, R144, R145, R157) -/

/-- The last pop of an unthread, before what follows it: HELD, Unthread Complete, and the retained items on their way to the store. -/
def unthreaded (s : State) : State := storeRetained (latch .unthreadComplete { s with
  cah.stageWork := none, cah.unwind := none, cah.state := .held, cah.mediaOp := none })

/-- The push of an Eject follows the unthread that it has ordered (R145). -/
theorem stackEmptied_eject {op : MediaOp} (hu : s.cah.unwind = some .unthread) (ho : s.cah.mediaOp = some op) (hk : op.kind = .eject) :
    (stackEmptied s).cah = { (unthreaded s).cah with mediaOp := some op, state := .ejecting, pushing := true }
      ∧ (stackEmptied s).pst = (unthreaded s).pst ∧ (stackEmptied s).events = (unthreaded s).events := by
  simp [stackEmptied, hu, ho, hk, beginEject, unthreaded]

/-- Any other unthread is over, and the command that waits for it is answered (R142). -/
theorem stackEmptied_unthread (hu : s.cah.unwind = some .unthread) (hk : ∀ op ∈ s.cah.mediaOp, op.kind ≠ .eject) :
    stackEmptied s = endUnthread ⟨unthreadOutcome s, .none⟩ (unthreaded s) := by
  unfold stackEmptied
  rw [hu]
  cases ho : s.cah.mediaOp with
  | none => rfl
  | some op => exact if_neg (hk op ho)

/-- The end of an Unthread at the head leaves the cartridge and the store. -/
@[simp] theorem endUnthread_frame (r : Reply) (s : State) : (endUnthread r s).cah = s.cah ∧ (endUnthread r s).pst = s.pst := by
  unfold endUnthread
  dsimp only
  split <;> simp

theorem endUnthread_rises (r : Reply) (s : State) : EventsRise s (endUnthread r s) := by
  unfold endUnthread
  dsimp only
  split
  · exact finishHead_rises _ _
  · exact finishHead_rises _ _
  · exact .refl s

theorem endUnthread_idle (r : Reply) (hq : s.dlp.queue = []) : endUnthread r s = s := by
  simp [endUnthread, headEntry, hq]

/-- An unthread that a media operation has made ends with no stage in progress, Unthread Complete latched and the retained items on their
way to the store; an Eject goes on to its push, and any other operation is over (R142, R145, R157). -/
theorem stackEmptied_ordered {op : MediaOp} (hu : s.cah.unwind = some .unthread) (ho : s.cah.mediaOp = some op) :
    (stackEmptied s).cah = { s.cah with
        stageWork := none
        unwind := none
        state := if op.kind = .eject then .ejecting else .held
        pushing := if op.kind = .eject then true else s.cah.pushing
        mediaOp := if op.kind = .eject then some op else none }
      ∧ EventsRise (latch .unthreadComplete s) (stackEmptied s)
      ∧ (stackEmptied s).pst.writes = s.pst.writes ++ [.retained s.hcm.hci s.hcm.level s.hcm.motionSeconds] := by
  by_cases hk : op.kind = .eject
  · obtain ⟨hcah, hpst, hevents⟩ := stackEmptied_eject hu ho hk
    rw [hcah, hpst]
    simp only [hk, if_true]
    exact ⟨rfl, .of_events_eq hevents, rfl⟩
  · rw [stackEmptied_unthread hu (by simpa [ho] using hk)]
    obtain ⟨hcah, hpst⟩ := endUnthread_frame ⟨unthreadOutcome s, .none⟩ (unthreaded s)
    rw [hcah, hpst]
    simp only [hk, if_false]
    exact ⟨rfl, endUnthread_rises _ (unthreaded s), rfl⟩

/-- An Unthread alone in the queue is answered with its outcome (R142, R144). -/
theorem endUnthread_answers {q : QEntry} {force : Bool} (r : Reply) (hq : s.dlp.queue = [q]) (hc : q.cmd = .unthread force)
    (hrun : s.dlp.run = { phase := .unthreading }) (hl : s.dlp.link = .up) :
    (endUnthread r s).dlp.queue = [] ∧ (endUnthread r s).out = s.out ++ [.reply q.tag r] := by
  obtain ⟨tag, cmd⟩ := q
  cases hc
  simp [endUnthread, headEntry, hq, hrun, finishHead, reply_up hl]

/-! ## A cartridge that is STUCK (R139, R187) -/

/-- A fault where no record is open opens one (R187). -/
theorem reportFault_opens (u : FaultUnit) (c : FaultCause) (h : s.frg.current = none) :
    (reportFault u c s).frg.current = some [⟨u, c, s.timeBase, s.frg.condition, s.moc.motion, s.cah.state⟩] := by
  unfold reportFault enterRecord
  dsimp only
  split <;> simp [h, enterFault, copyRecord, beginStoreWrite]

/-- The cartridge as it is when it cannot be returned. -/
def stuck (s : State) : State := { s with
  cah.state := .stuck
  cah.stageWork := none
  cah.unwind := none
  cah.mediaOp := none
  cah.pushing := false
  cah.cleaningStep := none
  cah.aborted := false }

/-- A Thread, an Unthread or an Eject in hand is answered that the THREADER has failed (R139, R145). -/
def threaderAnswered (s : State) : State :=
  match headEntry s, s.dlp.run.phase with
  | some _, .threading | some _, .unthreading | some _, .ejecting => finishHead threaderReply s
  | _, _ => s

theorem threaderAnswered_frame (s : State) : (threaderAnswered s).cah = s.cah ∧ (threaderAnswered s).frg = s.frg
    ∧ EventsRise s (threaderAnswered s) := by
  unfold threaderAnswered
  split
  case h_4 => exact ⟨rfl, rfl, .refl s⟩
  all_goals exact ⟨by simp, by simp, finishHead_rises _ _⟩

/-- STUCK is reported as a fault of the THREADER, told as an incomplete cleaning pass or not, and answered. -/
theorem becomeStuck_eq (c : FaultCause) (s : State) : ∃ told : Bool, becomeStuck c s =
    threaderAnswered (if told then latch .cleaningIncomplete (reportFault .threader c (stuck s)) else reportFault .threader c (stuck s)) :=
  ⟨_, rfl⟩

/-- What is told and answered leaves the cartridge STUCK and the Fault Register with the fault. -/
theorem becomeStuck_frame (c : FaultCause) (s : State) : (becomeStuck c s).cah = (stuck s).cah
    ∧ (becomeStuck c s).frg = (reportFault .threader c (stuck s)).frg
    ∧ EventsRise (reportFault .threader c (stuck s)) (becomeStuck c s) := by
  obtain ⟨told, heq⟩ := becomeStuck_eq c s
  rw [heq]
  cases told with
  | false =>
    obtain ⟨hcah, hfrg, hrise⟩ := threaderAnswered_frame (reportFault .threader c (stuck s))
    exact ⟨hcah.trans (by simp), hfrg, hrise⟩
  | true =>
    obtain ⟨hcah, hfrg, hrise⟩ := threaderAnswered_frame (latch .cleaningIncomplete (reportFault .threader c (stuck s)))
    exact ⟨hcah.trans (by simp), hfrg, (latch_rises _ _).trans hrise⟩

/-- A failed pop leaves the cartridge STUCK and the drive FAULTED (R139). -/
theorem stagePopFailed_pop (hw : s.cah.stageWork = some ⟨st, false, n, k⟩) : stagePopFailed s = becomeStuck .popFailed s := by
  simp [stagePopFailed, hw]

end

/-- Settles O43: each push, timeout and pop is the equation of its case above; the Acquire attempt that fails the thread stops the tape
before its pops, and the last pop of an unthread ends in the push of an Eject or in the answer of an Unthread. -/
theorem threadStackPushesAndPops : Obligations.ThreadStackPushesAndPops := by
  intro st st' n k below s
  refine ⟨fun h => ?_, fun hw hnext ht ha ha' => ?_, fun hw hs => ?_, fun hw ha => ?_, fun hw hr hn => ?_, fun hw hr hn hc hs => ?_,
    fun l hw hu hs ho hq => ?_, fun hw hr hn ha => ?_, fun hw hr hn ha hc hs ho => ?_, fun hw ht hs => ?_, fun hw hs => ?_,
    fun q force op hw hs ht hu ho => ?_, fun hw ht hs hu ho hq => ?_, fun hw => ?_⟩
  · obtain ⟨hpush, htime, hpop, hfail⟩ := stageWork_none h
    exact ⟨finishes hpush, finishes htime, finishes hpop, finishes hfail⟩
  · refine finishes ((stagePushed_next hw ha hnext).trans ?_)
    dsimp only
    rw [if_neg ht, beginPush_stage _ ha']
  · refine finishes ((stagePushed_next (st' := .acquire) (below := []) hw (by decide) (by rw [hs]; rfl)).trans ?_)
    dsimp only
    rw [if_pos rfl, beginPush_acquire]
    simp [comeToRest, Motion.moving, hs]
  · exact finishes (stagePushed_unacquired hw ha)
  · exact finishes ((stageTimedOut_again hw hr hn).trans (beginPush_acquire _ _))
  · have ht : stageTimedOut s = unwindStack (.threadFailed .acquire) (stopTape (latch .threadFailed s)) := by
      rw [stageTimedOut_last hw hr hn hc, stopAcquire_acquire (by exact hw)]
    have hstack : (stopTape (latch .threadFailed s)).cah.stack = [.seatLock, .grip, .draw, .wrap] ++ [.tension] := by
      simp [hs]
    obtain ⟨hunwind, hstate, hkept, -, hevents⟩ := unwindStack_frame (.threadFailed .acquire) hstack
    intro t
    refine ⟨rfl, ?_⟩
    simp only [t, ht]
    refine ⟨hunwind, by simpa using hstate, by simpa using hkept, fun hl => ?_, fun hm ho => ?_, fun hm ho => ?_⟩
    · exact latched_after (e := .threadFailed) (.of_events_eq (by rw [hevents]; simp)) hl
    · rw [stopTape_at_rest (by exact hm) (by exact ho)] at hstack ⊢
      rw [unwindStack_at_rest _ hstack (by exact ho)]
      exact ⟨rfl, rfl⟩
    · have hramp := stopTape_markRun (s := latch .threadFailed s) ho
      rw [unwindStack_moving _ hstack (by rw [hramp]; rfl)]
      exact ⟨rfl, hramp⟩
  · exact ⟨rfl, rampEnds_pops l hu hw hs ho hq⟩
  · exact finishes ((stageTimedOut_again hw hr hn).trans (beginPush_stage _ ha))
  · refine finishes ((stageTimedOut_last hw hr hn hc).trans ?_)
    rw [stopAcquire_other (by exact hw) ha, unwindStack_at_rest _ (by exact hs) (by exact ho)]
    rfl
  · exact finishes (stagePopped_next hw ht hs)
  · exact finishes (stagePopped_tension (below := [.seatLock, .grip, .draw]) hw hs)
  · intro t
    refine ⟨rfl, ?_⟩
    have hlast : t = stackEmptied { s with cah.stack := [], cah.stageWork := none } := stagePopped_last hw ht hs
    obtain ⟨hcah, hrise, hwrites⟩ := stackEmptied_ordered (s := { s with cah.stack := [], cah.stageWork := none }) hu ho
    rw [← hlast] at hcah hrise hwrites
    simp only [hcah]
    refine ⟨trivial, trivial, trivial, fun hl => latched_after (e := .unthreadComplete) hrise hl, hwrites, fun hk => ?_, fun hk => ?_,
      fun hk hq hc hrun hl => ?_⟩
    · simp [hk]
    · simp [hk]
    · rw [hlast, stackEmptied_unthread (by exact hu) (by simp [ho, hk])]
      exact endUnthread_answers _ (by exact hq) hc (by exact hrun) (by exact hl)
  · refine finishes ((stagePopped_last hw ht hs).trans ?_)
    rw [stackEmptied_unthread (by exact hu) (by simp [ho]), endUnthread_idle _ (by exact hq)]
    simp [unthreaded, storeRetained, beginStoreWrite, latch, changeEvent, Event.number, ho]
  · obtain ⟨hcah, hfrg, hrise⟩ := becomeStuck_frame .popFailed s
    obtain ⟨hfaulted, hlatched⟩ := reportFault_freezes (stuck s) (u := .threader) .popFailed rfl
    intro t
    refine ⟨finishes (stagePopFailed_pop hw), ?_⟩
    simp only [t, hcah, hfrg]
    refine ⟨rfl, rfl, rfl, rfl, hfaulted, fun hl => ?_, fun hcurrent => reportFault_opens _ _ hcurrent⟩
    exact latched_after (e := .driveFaulted) (hlatched.trans hrise) hl

end Sys2Proof.Machine
end

section
/-! SUPPORT. Custody: how it passes, how a question is settled, and how a Custody Request, an answer and a Release are ruled (R146 to
R150). -/

namespace Sys2Proof.Machine

variable {s : State} {q : Question} {x : Tag}

/-- An effect that is known is followed by its notice (R176). -/
theorem notifies {u t : State} (h : u = t) : (.next (sendNotices u) : Answer) = .next (sendNotices t) :=
  congrArg _ (congrArg sendNotices h)

/-! ## Custody passes (R146, R149) -/

/-- From the host to the Library Port: the grace timer stops, and Custody Changed is latched. -/
theorem passCustody_library (h : s.cah.holder = .link) : passCustody .library s = { s with
    cah.holder := .library
    cah.grace := none
    events := s.events.modify 6 EventFlags.latch } := by
  simp [passCustody, h, latch, changeEvent, Event.number]

/-- To the host: the grace timer runs from the start where the link is not UP (log 38). -/
theorem passCustody_link (h : s.cah.holder = .library) : passCustody .link s = { s with
    cah.holder := .link
    cah.grace := if s.dlp.link = .up then none else some 0
    events := s.events.modify 6 EventFlags.latch } := by
  simp [passCustody, h, latch, changeEvent, Event.number]

/-- Passing custody changes the holder, the grace timer and the Event Set alone. -/
theorem passCustody_frame (p : Port) (s : State) : (passCustody p s).out = s.out ∧ (passCustody p s).dlp = s.dlp
    ∧ (passCustody p s).lbp = s.lbp ∧ (passCustody p s).fmc = s.fmc ∧ (passCustody p s).moc = s.moc ∧ (passCustody p s).frg = s.frg
    ∧ (passCustody p s).cah = { s.cah with holder := p, grace := (passCustody p s).cah.grace }
    ∧ EventsRise s (passCustody p s) := by
  unfold passCustody
  split
  · next h => exact ⟨rfl, rfl, rfl, rfl, rfl, rfl, by rw [← h], .refl s⟩
  · exact ⟨rfl, rfl, rfl, rfl, rfl, rfl, rfl, (EventsRise.of_events_eq rfl).trans (latch_rises _ _)⟩

/-! ## A question is settled (R148) -/

/-- The question posted ends, and the flag that shows it to the library with it. -/
def questionEnded (s : State) : State := { s with cah.question := none, lbp.questionFlag := false }

/-- Custody once the question is ruled: a grant passes it to the port that asked. -/
def ruled (grant : Bool) (q : Question) (s : State) : State :=
  if grant then passCustody q.requester (questionEnded s) else questionEnded s

/-- What a host that waits for the ruling is told. -/
def rulingReply (grant : Bool) : Reply := if grant then goodReply else senseReply .custodyRefused

theorem settleQuestion_none (grant : Bool) (hq : s.cah.question = none) : settleQuestion grant s = s := by
  simp [settleQuestion, hq]

/-- With no host waiting, custody is all that the ruling settles. -/
theorem settleQuestion_untagged (grant : Bool) (hq : s.cah.question = some q) (ht : q.tag = none) :
    settleQuestion grant s = ruled grant q s := by
  simp [settleQuestion, hq, ht, ruled, questionEnded]

/-- A ruling leaves no question, and neither the link nor what was sent changes. -/
theorem ruled_frame (grant : Bool) (q : Question) (s : State) : (ruled grant q s).out = s.out ∧ (ruled grant q s).dlp = s.dlp
    ∧ (ruled grant q s).lbp.questionFlag = false ∧ (ruled grant q s).fmc = s.fmc ∧ (ruled grant q s).moc = s.moc
    ∧ (ruled grant q s).frg = s.frg
    ∧ (ruled grant q s).cah = { s.cah with
        question := none
        holder := if grant then q.requester else s.cah.holder
        grace := (ruled grant q s).cah.grace }
    ∧ EventsRise s (ruled grant q s) := by
  cases grant with
  | false => exact ⟨rfl, rfl, rfl, rfl, rfl, rfl, rfl, .of_events_eq rfl⟩
  | true =>
    obtain ⟨hout, hdlp, hlbp, hfmc, hmoc, hfrg, hcah, hrise⟩ := passCustody_frame q.requester (questionEnded s)
    exact ⟨hout, hdlp, congrArg Lbp.questionFlag hlbp, hfmc, hmoc, hfrg, hcah, (EventsRise.of_events_eq rfl).trans hrise⟩

/-- A host that waits is answered, and its tag ends. -/
theorem settleQuestion_waiting (grant : Bool) (hq : s.cah.question = some q) (ht : q.tag = some x) :
    settleQuestion grant s = dropTag x (reply x (rulingReply grant) (ruled grant q s)) := by
  simp [settleQuestion, hq, ht, ruled, questionEnded, rulingReply]

/-- A host that waits on a link that is UP hears the ruling. -/
theorem settleQuestion_tagged (grant : Bool) (hq : s.cah.question = some q) (ht : q.tag = some x) (hl : s.dlp.link = .up) :
    settleQuestion grant s = dropTag x (emit (.reply x (rulingReply grant)) (ruled grant q s)) := by
  have hup : (ruled grant q s).dlp.link = .up := by rw [(ruled_frame grant q s).2.1, hl]
  rw [settleQuestion_waiting grant hq ht, reply_up hup]

/-- Whoever asked and whoever waits, a settled question reaches custody, the tags, what is sent and the Event Set alone. -/
theorem settleQuestion_asked_frame (grant : Bool) (hq : s.cah.question = some q) : (settleQuestion grant s).fmc = s.fmc
    ∧ (settleQuestion grant s).moc = s.moc ∧ (settleQuestion grant s).frg = s.frg
    ∧ (settleQuestion grant s).dlp = { s.dlp with tags := (settleQuestion grant s).dlp.tags }
    ∧ (settleQuestion grant s).cah = { s.cah with
        question := none
        holder := if grant then q.requester else s.cah.holder
        grace := (settleQuestion grant s).cah.grace }
    ∧ EventsRise s (settleQuestion grant s) := by
  obtain ⟨-, hdlp, -, hfmc, hmoc, hfrg, hcah, hrise⟩ := ruled_frame grant q s
  cases ht : q.tag with
  | none =>
    rw [settleQuestion_untagged grant hq ht]
    exact ⟨hfmc, hmoc, hfrg, by rw [hdlp], hcah, hrise⟩
  | some x =>
    rw [settleQuestion_waiting grant hq ht]
    simp only [dropTag_fmc, dropTag_moc, dropTag_frg, dropTag_dlp, dropTag_cah, reply_frame, hfmc, hmoc, hfrg, hdlp]
    exact ⟨trivial, trivial, trivial, trivial, hcah, hrise.trans (.of_events_eq (by simp))⟩

/-- A question of the library, ruled by the host. -/
theorem ruled_library (grant : Bool) (hh : s.cah.holder = .link) (hr : q.requester = .library) : ruled grant q s = { s with
    cah.question := none
    lbp.questionFlag := false
    cah.holder := if grant then .library else .link
    cah.grace := if grant then none else s.cah.grace
    events := if grant then s.events.modify 6 EventFlags.latch else s.events } := by
  cases grant with
  | false => simp [ruled, questionEnded, ← hh]
  | true =>
    simp only [ruled, hr, if_true]
    exact passCustody_library hh

/-- A question of the host, granted by the library. -/
theorem ruled_link (hh : s.cah.holder = .library) (hr : q.requester = .link) : ruled true q s = { s with
    cah.question := none
    lbp.questionFlag := false
    cah.holder := .link
    cah.grace := if s.dlp.link = .up then none else some 0
    events := s.events.modify 6 EventFlags.latch } := by
  simp only [ruled, hr, if_true]
  exact passCustody_link hh

/-! ## A Custody Request (R147) -/

/-- The ruling that a policy alone gives. -/
def Policy.rules : Policy → CustodyRuling
  | .grant => .granted
  | .refuse => .refused .custodyRefused
  | .ask => .asked

theorem custodyRuling_empty (p : Port) (hs : s.cah.state = .empty) : custodyRuling p s = .refused .noCartridge := by
  simp [custodyRuling, hs]

theorem custodyRuling_held {p : Port} (hs : s.cah.state ≠ .empty) (hh : s.cah.holder = p) : custodyRuling p s = .held := by
  simp [custodyRuling, hs, hh]

theorem custodyRuling_posted {p : Port} (hs : s.cah.state ≠ .empty) (hh : s.cah.holder = p.other) (hq : s.cah.question.isSome = true) :
    custodyRuling p s = .refused .questionPending := by
  cases p <;> simp [custodyRuling, hs, hh, hq, Port.other]

/-- A host that meets neither is ruled by the library's policy. -/
theorem custodyRuling_link {p : Policy} (hs : s.cah.state ≠ .empty) (hh : s.cah.holder = .library) (hq : s.cah.question = none)
    (hp : s.cah.libraryPolicy = p) : custodyRuling .link s = p.rules := by
  cases p <;> simp [custodyRuling, hs, hh, hq, holderPolicy, hp, Policy.rules]

theorem custodyRuling_mediumWork (hs : s.cah.state ≠ .empty) (hh : s.cah.holder = .link) (hq : s.cah.question = none)
    (hw : s.dlp.queue ≠ []) : custodyRuling .library s = .refused .laterMediumWork := by
  simp [custodyRuling, hs, hh, hq, mediumWork, hw]

theorem custodyRuling_cleaning (hs : s.cah.state = .cleaning) (hh : s.cah.holder = .link) (hq : s.cah.question = none)
    (hw : s.dlp.queue = []) : custodyRuling .library s = .refused .laterCleaning := by
  simp [custodyRuling, hs, hh, hq, mediumWork, hw]

/-- The library is ruled by the host's policy where no medium work and no cleaning pass stands in the way. -/
theorem custodyRuling_library {p : Policy} (hs : s.cah.state ≠ .empty) (hc : s.cah.state ≠ .cleaning) (hh : s.cah.holder = .link)
    (hq : s.cah.question = none) (hw : s.dlp.queue = []) (hp : s.cah.linkPolicy = p) : custodyRuling .library s = p.rules := by
  cases p <;> simp [custodyRuling, hs, hc, hh, hq, mediumWork, hw, holderPolicy, hp, Policy.rules]

/-! ## A Custody Answer and a Release (R146, R148) -/

theorem answerRefusal_uncustodied {p : Port} (h : s.cah.holder ≠ p) : answerRefusal p s = some .noCustody := if_pos h

theorem answerRefusal_unasked {p : Port} (h : s.cah.holder = p) (hq : s.cah.question = none) :
    answerRefusal p s = some .noQuestion := by
  simp [answerRefusal, h, hq]

theorem answerRefusal_asked {p : Port} (h : s.cah.holder = p) (hq : s.cah.question = some q) : answerRefusal p s = none := by
  simp [answerRefusal, h, hq]

theorem releaseRefusal_empty (p : Port) (hs : s.cah.state = .empty) : releaseRefusal p s = some .noCartridge := if_pos hs

theorem releaseRefusal_uncustodied {p : Port} (hs : s.cah.state ≠ .empty) (h : s.cah.holder ≠ p) :
    releaseRefusal p s = some .noCustody := by
  simp [releaseRefusal, hs, h]

theorem releaseRefusal_none {p : Port} (hs : s.cah.state ≠ .empty) (h : s.cah.holder = p) : releaseRefusal p s = none := by
  simp [releaseRefusal, hs, h]

theorem releaseCustody_unasked (p : Port) (hq : s.cah.question = none) : releaseCustody p s = passCustody p.other s := by
  simp [releaseCustody, hq]

theorem releaseCustody_asked (p : Port) (hq : s.cah.question = some q) : releaseCustody p s = settleQuestion true s := by
  simp [releaseCustody, hq]

end Sys2Proof.Machine
end

section
/-! SUPPORT. The host's custody commands and the timers of custody (R146 to R150). -/

namespace Sys2Proof.Machine

section
variable {s : State} {tag : Tag} {r : Reason}

theorem reply_heard (hl : s.dlp.link = .up) (tag : Tag) (r : Reply) : reply tag r (heard s) = replied tag r s := reply_up hl

/-! ## Custody Request -/

theorem exec_custodyRequest (ho : Open tag s) :
    exec (.custodyRequest tag) s = .next (sendNotices (linkCustody tag (heard s))) := immediate_open ho

theorem linkCustody_held (hl : s.dlp.link = .up) (h : custodyRuling .link (heard s) = .held) :
    linkCustody tag (heard s) = replied tag goodReply s := by
  rw [linkCustody, h]
  exact reply_heard hl _ _

theorem linkCustody_refused (hl : s.dlp.link = .up) (h : custodyRuling .link (heard s) = .refused r) :
    linkCustody tag (heard s) = replied tag (senseReply r) s := by
  rw [linkCustody, h]
  exact reply_heard hl _ _

theorem linkCustody_granted (hl : s.dlp.link = .up) (hh : s.cah.holder = .library) (h : custodyRuling .link (heard s) = .granted) :
    linkCustody tag (heard s) = replied tag goodReply { s with
      cah.holder := .link
      cah.grace := none
      events := s.events.modify 6 EventFlags.latch } := by
  have hup : (heard s).dlp.link = .up := hl
  simp only [linkCustody, h, passCustody_link (s := heard s) hh, if_pos hup]
  exact reply_up hl

theorem linkCustody_asked (h : custodyRuling .link (heard s) = .asked) : linkCustody tag (heard s) = { heard s with
    cah.question := some { requester := .link, timer := 0, tag := some tag }
    dlp.tags := s.dlp.tags ++ [tag]
    lbp.questionFlag := true } := by
  rw [linkCustody, h]
  rfl

/-! ## Custody Answer and Release -/

theorem exec_custodyAnswer_refused (grant : Bool) (ho : Open tag s) (h : answerRefusal .link s = some r) :
    exec (.custodyAnswer tag grant) s = .next (sendNotices (replied tag (senseReply r) s)) := by
  refine (immediate_open ho).trans (notifies ?_)
  have h' : answerRefusal .link (heard s) = some r := h
  simp only [h', reply_heard ho.1]

theorem exec_custodyAnswer_settles (grant : Bool) (ho : Open tag s) (h : answerRefusal .link s = none) :
    exec (.custodyAnswer tag grant) s = .next (sendNotices (settleQuestion grant (replied tag goodReply s))) := by
  refine (immediate_open ho).trans (notifies ?_)
  have h' : answerRefusal .link (heard s) = none := h
  simp only [h', reply_heard ho.1]

theorem exec_release_refused (ho : Open tag s) (h : releaseRefusal .link s = some r) :
    exec (.release tag) s = .next (sendNotices (replied tag (senseReply r) s)) := by
  refine (immediate_open ho).trans (notifies ?_)
  have h' : releaseRefusal .link (heard s) = some r := h
  simp only [h', reply_heard ho.1]

theorem exec_release_passes (ho : Open tag s) (h : releaseRefusal .link s = none) :
    exec (.release tag) s = .next (sendNotices (releaseCustody .link (replied tag goodReply s))) := by
  refine (immediate_open ho).trans (notifies ?_)
  have h' : releaseRefusal .link (heard s) = none := h
  simp only [h', reply_heard ho.1]

/-! ## The grace timer (R149) -/

theorem graceExpires_unasked (hg : s.cah.grace ≠ none) (hq : s.cah.question = none) :
    graceExpires s = passCustody .library { s with cah.grace := none } := by
  simp [graceExpires, hg, hq]

theorem graceExpires_asked {q : Question} (hg : s.cah.grace ≠ none) (hq : s.cah.question = some q) (hr : q.requester = .library) :
    graceExpires s = settleQuestion true { s with cah.grace := none } := by
  simp [graceExpires, hg, hq, hr]

end

/-- Settles O27: each clause is a ruling of R147, carried out. -/
theorem linkCustodyRequestsAreRuledInOrder : Obligations.LinkCustodyRequestsAreRuledInOrder := by
  intro tag s ho
  have hl := ho.1
  rw [exec_custodyRequest ho]
  refine ⟨fun hs => ?empty, fun hs hh => ?held, fun hs hh hq => ?posted, fun hs hh hq hp => ?grant, fun hs hh hq hp => ?refuse,
    fun hs hh hq hp => ?ask⟩
  case empty => exact notifies (linkCustody_refused hl (custodyRuling_empty _ hs))
  case held => exact notifies (linkCustody_held hl (custodyRuling_held hs hh))
  case posted => exact notifies (linkCustody_refused hl (custodyRuling_posted hs hh hq))
  case grant => exact notifies (linkCustody_granted hl hh (custodyRuling_link hs hh hq hp))
  case refuse => exact notifies (linkCustody_refused hl (custodyRuling_link hs hh hq hp))
  case ask => exact notifies (linkCustody_asked (custodyRuling_link hs hh hq hp))

/-- Settles O28: an answer is a settled question, and a Release passes custody itself or settles the library's question as granted. -/
theorem linkAnswersAndReleasesCustody : Obligations.LinkAnswersAndReleasesCustody := by
  intro tag s ho
  refine ⟨fun grant => ⟨fun hh => ?uncustodied, fun hh hq => ?unasked, fun q x hh hq ht => ?tagged, fun q hh hq hr ht => ?untagged⟩,
    fun hs => ?empty, fun hs hh => ?releaseUncustodied, fun hs hh hq => ?passed, fun q hs hh hq hr ht => ?settled⟩
  case uncustodied => exact exec_custodyAnswer_refused grant ho (answerRefusal_uncustodied hh)
  case unasked => exact exec_custodyAnswer_refused grant ho (answerRefusal_unasked hh hq)
  case tagged =>
    have hsettled : settleQuestion grant (replied tag goodReply s) = _ := settleQuestion_tagged grant (by exact hq) ht (by exact ho.1)
    obtain ⟨hout, hdlp, hflag, -, -, -, hcah, -⟩ := ruled_frame grant q (replied tag goodReply s)
    refine ⟨exec_custodyAnswer_settles grant ho (answerRefusal_asked hh hq), ?_⟩
    simp only [hsettled, dropTag_cah, dropTag_lbp, dropTag_dlp, dropTag_out, emit_cah, emit_lbp, emit_dlp, emit_out, hout, hdlp,
      hflag, replied_dlp, replied_out, List.append_assoc]
    exact ⟨congrArg Cah.question hcah, trivial, trivial, rfl⟩
  case untagged =>
    refine (exec_custodyAnswer_settles grant ho (answerRefusal_asked hh hq)).trans (notifies ?_)
    rw [settleQuestion_untagged grant (by exact hq) ht, ruled_library grant (by exact hh) hr]
    rfl
  case empty => exact exec_release_refused ho (releaseRefusal_empty _ hs)
  case releaseUncustodied => exact exec_release_refused ho (releaseRefusal_uncustodied hs hh)
  case passed =>
    refine (exec_release_passes ho (releaseRefusal_none hs hh)).trans (notifies ?_)
    rw [releaseCustody_unasked _ (by exact hq)]
    exact passCustody_library hh
  case settled =>
    refine (exec_release_passes ho (releaseRefusal_none hs hh)).trans (notifies ?_)
    rw [releaseCustody_asked _ (by exact hq), settleQuestion_untagged true (by exact hq) ht]
    exact ruled_library true hh hr

/-- Settles O31: the question's timeout is a refusal, and the grace timeout passes custody by itself or as the grant of the library's
question. -/
theorem custodyTimersSettle : Obligations.CustodyTimersSettle := by
  intro s
  refine ⟨fun hq => ?unasked, fun q hq ht => ?untagged, fun q t hq ht hl => ?tagged, fun hg => ?stopped, fun hg hh hq => ?grace⟩
  case unasked => exact notifies (settleQuestion_none false hq)
  case untagged => exact notifies (settleQuestion_untagged false hq ht)
  case tagged => exact notifies (settleQuestion_tagged false hq ht hl)
  case stopped => exact notifies (if_pos (by rw [hg]; rfl))
  case grace =>
    refine notifies ?_
    cases hquestion : s.cah.question with
    | none =>
      rw [graceExpires_unasked hg hquestion, passCustody_library (by exact hh), if_pos rfl, ← hquestion]
    | some q =>
      obtain ⟨hr, ht⟩ := hq q hquestion
      rw [graceExpires_asked hg hquestion hr, settleQuestion_untagged true (by exact hquestion) ht, ruled_library true (by exact hh) hr]
      rfl

end Sys2Proof.Machine
end

section
/-! SUPPORT. The Library Port's line, its custody records and its policy (R146 to R150, R178 to R180). -/

namespace Sys2Proof.Machine

section
variable {s : State} {q : Question} {x : Tag} {r : Reason} {b : Byte}

/-- A record addressed to the drive is taken while the port listens, and passed over in every other line state (R178). -/
theorem recordIn_listening (h : s.lbp.line = .listening) (k : State → State) : recordIn k s = k s := if_pos h

theorem recordIn_busy (h : s.lbp.line ≠ .listening) (k : State → State) : recordIn k s = s := if_neg h

theorem exec_libraryAnswerSent_answered {a : LibRecord} (h : s.lbp.line = .answering) (ha : s.lbp.answer = some a) :
    exec .libraryAnswerSent s = .next (emit (.library a) { s with lbp.line := .listening, lbp.answer := none }) := by
  simp [exec, execLibraryAnswerSent, h, ha]

/-- An order that waits for negotiation keeps the port in ANSWERING (R136, R145). -/
theorem exec_libraryAnswerSent_unanswered (h : s.lbp.line = .answering) (ha : s.lbp.answer = none) :
    exec .libraryAnswerSent s = .next (if s.lbp.waiting.isNone then { s with lbp.line := .listening } else s) := by
  simp [exec, execLibraryAnswerSent, h, ha]

/-! ## The break (R148, R178) -/

/-- The exchange that a break ends: no answer and no order of it stays. -/
def lineBroken (s : State) : State := { s with lbp.line := .inBreak, lbp.answer := none, lbp.waiting := none }

/-- A question of the library itself, or none, is not touched by the break. -/
theorem exec_libraryLineBreak_unasked (h : s.lbp.line ≠ .disabled)
    (hq : ∀ q : Question, s.cah.question = some q → q.requester = .library) :
    exec .libraryLineBreak s = .next (sendNotices { lineBroken s with lbp.questionFlag := false }) := by
  cases hquestion : s.cah.question with
  | none => simp [exec, execLibraryLineBreak, h, hquestion, lineBroken]
  | some q => simp [exec, execLibraryLineBreak, h, hquestion, hq q hquestion, lineBroken]

/-- A question of the host, which the library can no longer answer, is refused. -/
theorem exec_libraryLineBreak_asked (h : s.lbp.line ≠ .disabled) (hq : s.cah.question = some q) (hr : q.requester = .link) :
    exec .libraryLineBreak s = .next (sendNotices { settleQuestion false (lineBroken s) with lbp.questionFlag := false }) := by
  simp [exec, execLibraryLineBreak, h, hq, hr, lineBroken]

/-! ## Custody records (R147, R148) -/

theorem exec_libraryCustodyRequest (h : s.lbp.line = .listening) :
    exec .libraryCustodyRequest s = .next (sendNotices (libCustody s)) := notifies (recordIn_listening h _)

theorem exec_libraryCustodyAnswer (h : s.lbp.line = .listening) (b : Byte) :
    exec (.libraryCustodyAnswer b) s = .next (sendNotices (libCustodyAnswer b s)) := notifies (recordIn_listening h _)

theorem exec_custodyRelease (h : s.lbp.line = .listening) :
    exec .custodyRelease s = .next (sendNotices (libRelease s)) := notifies (recordIn_listening h _)

theorem exec_setLibraryPolicy (h : s.lbp.line = .listening) (b : Byte) :
    exec (.setLibraryPolicy b) s = .next (libPolicy b s) := congrArg _ (recordIn_listening h _)

theorem libCustody_held (h : custodyRuling .library s = .held) : libCustody s = answerGood s := by rw [libCustody, h]

theorem libCustody_refused (h : custodyRuling .library s = .refused r) : libCustody s = answerWith r none s := by rw [libCustody, h]

theorem libCustody_granted (h : custodyRuling .library s = .granted) (hh : s.cah.holder = .link) :
    libCustody s = answerGood { s with cah.holder := .library, cah.grace := none, events := s.events.modify 6 EventFlags.latch } := by
  simp only [libCustody, h, passCustody_library hh]

/-- A question is posted to the host, told at once where the link is UP (R148, R176). -/
theorem libCustody_asked (h : custodyRuling .library s = .asked) : libCustody s = answerWith .questionPosted none { s with
    cah.question := some { requester := .library, timer := 0, tag := none }
    events := s.events.modify 7 EventFlags.latch
    out := if s.dlp.link = .up then s.out ++ [.custodyAsked .library] else s.out } := by
  rw [libCustody, h]
  by_cases hl : s.dlp.link = .up <;> simp [postQuestion, noticeQuestion, hl, emit, latch, changeEvent, Event.number]

/-! ## The answer's body (section Layouts) -/

theorem grantOf_none (h1 : b ≠ 1#8) (h2 : b ≠ 2#8) : grantOf b = none := by
  unfold grantOf
  rw [if_neg (by bv_omega), if_neg (by bv_omega)]

theorem libCustodyAnswer_badValue (h : grantOf b = none) : libCustodyAnswer b s = answerWith .badValue none s := by
  rw [libCustodyAnswer, h]

theorem libCustodyAnswer_refused {grant : Bool} (h : grantOf b = some grant) (hr : answerRefusal .library s = some r) :
    libCustodyAnswer b s = answerWith r none s := by
  simp only [libCustodyAnswer, h, hr]

theorem libCustodyAnswer_settles {grant : Bool} (h : grantOf b = some grant) (hr : answerRefusal .library s = none) :
    libCustodyAnswer b s = answerGood (settleQuestion grant s) := by
  simp only [libCustodyAnswer, h, hr]

theorem libRelease_refused (h : releaseRefusal .library s = some r) : libRelease s = answerWith r none s := by
  rw [libRelease, h]

theorem libRelease_passes (h : releaseRefusal .library s = none) : libRelease s = answerGood (releaseCustody .library s) := by
  rw [libRelease, h]

/-- The library's grant of a host's question: custody passes, and a host on a link that is UP hears of it. -/
theorem granted_tagged (hh : s.cah.holder = .library) (hq : s.cah.question = some q) (hr : q.requester = .link) (ht : q.tag = some x)
    (hl : s.dlp.link = .up) : settleQuestion true s = { s with
      cah.question := none
      lbp.questionFlag := false
      cah.holder := .link
      cah.grace := none
      events := s.events.modify 6 EventFlags.latch
      dlp.tags := s.dlp.tags.filter (· ≠ x)
      out := s.out ++ [.reply x goodReply] } := by
  rw [settleQuestion_tagged true hq ht hl, ruled_link hh hr, if_pos hl]
  rfl

theorem libPolicy_set {p : Policy} (h : policyOf b.toNat = some p) :
    libPolicy b s = answerGood { s with pst.libraryPolicy := p } := by
  rw [libPolicy, h]

theorem libPolicy_badValue (h : policyOf b.toNat = none) : libPolicy b s = answerWith .badValue none s := by
  rw [libPolicy, h]

end

/-- Settles O29: a record is taken while the port listens; a break is a refusal where a question of the host is posted. -/
theorem libraryLineCarriesPollsAndBreaks : Obligations.LibraryLineCarriesPollsAndBreaks := by
  intro s b
  refine ⟨fun h => ⟨?poll, fun ht => ?unknown⟩, fun h => ⟨?pollBusy, ?unknownBusy⟩, rfl, fun r h hr => ?sent,
    fun h hr => ?unanswered, fun h hq => ?brk, fun q t h hq hr ht hl => ?brkAsked, fun h => ?brkDisabled, fun h => ?ends, fun h => ?noBreak⟩
  case poll => exact congrArg _ (recordIn_listening h _)
  case unknown =>
    refine congrArg Host.Outcome.next ((if_neg (by simp [ht])).trans ?_)
    exact recordIn_listening h _
  case pollBusy => exact congrArg _ (recordIn_busy h _)
  case unknownBusy =>
    refine congrArg Host.Outcome.next ?_
    rw [recordIn_busy h, ite_self]
  case sent => exact exec_libraryAnswerSent_answered h hr
  case unanswered =>
    rw [exec_libraryAnswerSent_unanswered h hr]
    cases hw : s.lbp.waiting with
    | none => rfl
    | some order => rw [if_neg (by simp), if_neg (by simp), ← h]
  case brk => exact exec_libraryLineBreak_unasked h hq
  case brkAsked =>
    rw [exec_libraryLineBreak_asked h hq hr, settleQuestion_tagged false (by exact hq) ht (by exact hl)]
    rfl
  case brkDisabled => exact congrArg _ (if_pos h)
  case ends => exact congrArg _ (if_pos h)
  case noBreak => exact congrArg _ (if_neg h)

/-- Settles O30: each record is ruled by the tables of R146 to R148, and answered. -/
theorem libraryCustodyRecordsAreAnswered : Obligations.LibraryCustodyRecordsAreAnswered := by
  intro s h
  dsimp only
  rw [exec_libraryCustodyRequest h, exec_custodyRelease h]
  simp only [exec_libraryCustodyAnswer h, exec_setLibraryPolicy h]
  refine ⟨fun hs => ?empty, fun hs hh => ?held, fun hs hh hq => ?posted, fun hs hh hq hw => ?mediumWork, fun hs hh hq hw => ?cleaning,
    fun hs hc hh hq hw => ⟨fun hp => ?grant, fun hp => ?refuse, fun hp => ?ask⟩,
    fun b q hh hq hr ht => ⟨?answerRefuse, ?answerGrant⟩, fun b q x hh hq hr ht hl => ⟨?answerRefuseTag, ?answerGrantTag⟩,
    fun q x hs hh hq hr ht hl => ?releaseTag, fun q hs hh hq hr ht => ?releaseAsked, fun b h1 h2 => ?badAnswer,
    fun b hb hh => ?answerUncustodied, fun hs hh hq => ?release, fun hs hh => ?releaseUncustodied, fun p b hb => ?policy,
    fun b hb => ?badPolicy⟩
  case empty => exact notifies (libCustody_refused (custodyRuling_empty _ hs))
  case held => exact notifies (libCustody_held (custodyRuling_held hs hh))
  case posted => exact notifies (libCustody_refused (custodyRuling_posted hs hh hq))
  case mediumWork => exact notifies (libCustody_refused (custodyRuling_mediumWork hs hh hq hw))
  case cleaning => exact notifies (libCustody_refused (custodyRuling_cleaning hs hh hq hw))
  case grant => exact notifies (libCustody_granted (custodyRuling_library hs hc hh hq hw hp) hh)
  case refuse => exact notifies (libCustody_refused (custodyRuling_library hs hc hh hq hw hp))
  case ask => exact notifies (libCustody_asked (custodyRuling_library hs hc hh hq hw hp))
  case answerRefuse =>
    rintro rfl
    rw [libCustodyAnswer_settles rfl (answerRefusal_asked hh hq), settleQuestion_untagged _ hq ht]
    rfl
  case answerGrant =>
    rintro rfl
    rw [libCustodyAnswer_settles rfl (answerRefusal_asked hh hq), settleQuestion_untagged _ hq ht, ruled_link hh hr]
    rfl
  case answerRefuseTag =>
    rintro rfl
    rw [libCustodyAnswer_settles rfl (answerRefusal_asked hh hq), settleQuestion_tagged _ hq ht hl]
    rfl
  case answerGrantTag =>
    rintro rfl
    rw [libCustodyAnswer_settles rfl (answerRefusal_asked hh hq), granted_tagged hh hq hr ht hl]
    rfl
  case releaseTag =>
    rw [libRelease_passes (releaseRefusal_none hs hh), releaseCustody_asked _ hq, granted_tagged hh hq hr ht hl]
    rfl
  case releaseAsked =>
    rw [libRelease_passes (releaseRefusal_none hs hh), releaseCustody_asked _ hq, settleQuestion_untagged _ hq ht, ruled_link hh hr]
    rfl
  case badAnswer => exact notifies (libCustodyAnswer_badValue (grantOf_none h1 h2))
  case answerUncustodied =>
    have hr := answerRefusal_uncustodied (s := s) (p := .library) (by rw [hh]; decide)
    rcases hb with rfl | rfl
    · exact notifies (libCustodyAnswer_refused rfl hr)
    · exact notifies (libCustodyAnswer_refused rfl hr)
  case release =>
    rw [libRelease_passes (releaseRefusal_none hs hh), releaseCustody_unasked _ hq, Port.other, passCustody_link hh]
    rfl
  case releaseUncustodied => exact notifies (libRelease_refused (releaseRefusal_uncustodied hs (by rw [hh]; decide)))
  case policy => exact congrArg _ (libPolicy_set (by rw [hb, policyOf_code]))
  case badPolicy =>
    refine congrArg _ (libPolicy_badValue (policyOf_eq_none.2 ?_))
    rcases hb with rfl | hb
    · exact .inl rfl
    · exact .inr hb

end Sys2Proof.Machine
end

section
/-! SUPPORT. The Library Port's Thread, Unthread and Eject (R136, R141, R142, R145, R180, R183). -/

namespace Sys2Proof.Machine

section
variable {s : State}

/-! ## An order is taken (R180, R183) -/

theorem exec_libraryThread (h : s.lbp.line = .listening) :
    exec .libraryThread s = .next (finish (orderIn libThread s)) := finishes (recordIn_listening h _)

theorem exec_libraryUnthread (h : s.lbp.line = .listening) :
    exec .libraryUnthread s = .next (finish (orderIn libUnthread s)) := finishes (recordIn_listening h _)

theorem exec_libraryEject (h : s.lbp.line = .listening) :
    exec .libraryEject s = .next (finish (orderIn libEject s)) := finishes (recordIn_listening h _)

theorem orderIn_faulted (h : s.frg.condition = .faulted) (k : State → State) : orderIn k s = answerWith .driveFaulted none s := if_pos h

theorem orderIn_unready (hf : s.frg.condition ≠ .faulted) (hr : s.frg.condition ≠ .ready) (k : State → State) :
    orderIn k s = answerWith .becomingReady none s := by
  simp [orderIn, hf, hr]

theorem orderIn_ready (h : s.frg.condition = .ready) (k : State → State) : orderIn k s = k s := by
  simp [orderIn, h]

/-! ## Thread (R136) -/

theorem libThread_threaded (h : s.cah.state = .threaded ∨ s.cah.state = .threading) : libThread s = answerGood s := by
  rcases h with h | h <;> rw [libThread, h]

theorem libThread_empty (h : s.cah.state = .empty) : libThread s = answerWith .noCartridge none s := by rw [libThread, h]

/-- A fit cartridge that no medium work holds is threaded. -/
theorem libThread_fit (h : s.cah.state = .negotiated ∨ s.cah.state = .held) (hc : cleaningCartridge s = false)
    (hm : s.cah.mode ≠ some .incompatible) (hq : s.dlp.queue = []) : libThread s = beginThread .library (answerGood s) := by
  rcases h with h | h <;> simp [libThread, h, hc, hm, mediumWork, hq]

/-! ## Unthread (R141, R142) -/

theorem libUnthread_unthreaded (h : s.cah.state = .seated ∨ s.cah.state = .negotiated ∨ s.cah.state = .held) :
    libUnthread s = answerGood s := by
  rcases h with h | h | h <;> rw [libUnthread, h]

theorem libUnthread_empty (h : s.cah.state = .empty) : libUnthread s = answerWith .noCartridge none s := by rw [libUnthread, h]

theorem libUnthread_busy (h : s.cah.state = .unthreading ∨ s.cah.state = .ejecting) :
    libUnthread s = answerWith .operationInHand none s := by
  rcases h with h | h <;> rw [libUnthread, h]

theorem libUnthread_mediumWork (h : s.cah.state = .threaded) (hq : s.dlp.queue ≠ []) :
    libUnthread s = answerWith .laterMediumWork none s := by
  simp [libUnthread, h, libUnthreadThreaded, mediumWork, hq]

/-- With nothing unwritten and the writer at rest the unthread begins at once. -/
theorem libUnthread_clean (h : s.cah.state = .threaded) (hq : s.dlp.queue = []) (hr : s.wch.report = none)
    (he : s.wch.endOfMediumStop = false) (hslots : suspendedSlots s = false) (hempty : writeSideEmpty s = true)
    (hbusy : writerBusy s = false) : libUnthread s =
      beginUnthread (answerGood { s with cah.mediaOp := some { kind := .unthread, orderer := .library, force := false } }) := by
  rw [libUnthread, h]
  refine (if_neg (by simp [mediumWork, hq])).trans ((if_neg (by simp [hr, he, hslots])).trans ?_)
  exact (if_neg fun hfull => absurd (hempty.symm.trans hfull) (by decide)).trans
    (if_neg fun hwrites => absurd (hbusy.symm.trans hwrites) (by decide))

/-! ## Eject (R145) -/

theorem libEject_uncustodied (h : s.cah.holder = .link) : libEject s = answerWith .noCustody none s := by
  simp [libEject, h]

theorem libEject_pushes (hh : s.cah.holder = .library) (h : s.cah.state = .negotiated ∨ s.cah.state = .held) : libEject s =
    beginEject (answerGood { s with cah.mediaOp := some { kind := .eject, orderer := .library, force := false } }) := by
  rcases h with h | h <;> simp [libEject, hh, h]

theorem libEject_empty (hh : s.cah.holder = .library) (h : s.cah.state = .empty) : libEject s = answerWith .noCartridge none s := by
  simp [libEject, hh, h]

end

/-- Settles O32: the drive condition is tested first, and then each order follows the table of its cartridge states. -/
theorem libraryOrdersAreAnsweredByTheCartridgeState : Obligations.LibraryOrdersAreAnsweredByTheCartridgeState := by
  intro s h
  dsimp only
  constructor
  · rintro c (rfl | rfl | rfl)
    · rw [exec_libraryThread h]
      exact ⟨fun hf => finishes (orderIn_faulted hf _), fun hf hr => finishes (orderIn_unready hf hr _)⟩
    · rw [exec_libraryUnthread h]
      exact ⟨fun hf => finishes (orderIn_faulted hf _), fun hf hr => finishes (orderIn_unready hf hr _)⟩
    · rw [exec_libraryEject h]
      exact ⟨fun hf => finishes (orderIn_faulted hf _), fun hf hr => finishes (orderIn_unready hf hr _)⟩
  · intro hready
    rw [exec_libraryThread h, exec_libraryUnthread h, exec_libraryEject h, orderIn_ready hready, orderIn_ready hready,
      orderIn_ready hready]
    refine ⟨fun hs => ?threaded, fun hs => ?threadEmpty, fun hs hc hm hq hst => ?thread, fun hs => ?unthreaded, fun hs => ?unthreadEmpty,
      fun hs => ?busy, fun hs hq => ?mediumWork, fun hs hq hr he hslots hempty hbusy => ?unthread, fun hh => ?uncustodied,
      fun hh hs => ?eject, fun hh hs => ?ejectEmpty⟩
    case threaded => exact finishes (libThread_threaded hs)
    case threadEmpty => exact finishes (libThread_empty hs)
    case thread => exact finishes ((libThread_fit hs hc hm hq).trans (beginThread_seatLock _ hst))
    case unthreaded => exact finishes (libUnthread_unthreaded hs)
    case unthreadEmpty => exact finishes (libUnthread_empty hs)
    case busy => exact finishes (libUnthread_busy hs)
    case mediumWork => exact finishes (libUnthread_mediumWork hs hq)
    case unthread => exact finishes (libUnthread_clean hs hq hr he hslots hempty hbusy)
    case uncustodied => exact finishes (libEject_uncustodied hh)
    case eject => exact finishes (libEject_pushes hh hs)
    case ejectEmpty => exact finishes (libEject_empty hh hs)

end Sys2Proof.Machine
end

section
/-! SUPPORT. Read Attribute and Write Attribute (R132). -/

namespace Sys2Proof.Machine

section
variable {s : State} {tag : Tag} {a : AttrName} {i : CmImage} {v : Option (List Byte)} {r : Reason}

/-! ## The refusals that both share -/

theorem attrRefusal_noCartridge (h : s.cah.state = .empty ∨ s.cah.state = .seated) : attrRefusal s = some .noCartridge := if_pos h

theorem attrRefusal_unreadable (he : s.cah.state ≠ .empty) (hs : s.cah.state ≠ .seated) (hr : s.cah.cmReadable = false) :
    attrRefusal s = some .cmUnreadable := by
  simp [attrRefusal, he, hs, hr]

theorem attrRefusal_none (he : s.cah.state ≠ .empty) (hs : s.cah.state ≠ .seated) (hr : s.cah.cmReadable = true) :
    attrRefusal s = none := by
  simp [attrRefusal, he, hs, hr]

/-! ## Read Attribute -/

theorem exec_readAttribute_refused (ho : Open tag s) (ha : attrFits a = true) (h : attrRefusal s = some r) :
    exec (.readAttribute tag a) s = .next (sendNotices (replied tag (senseReply r) s)) := by
  have h' : attrRefusal (heard s) = some r := h
  refine (if_pos ha).trans ((immediate_open ho).trans (notifies ?_))
  simp only [h', reply_heard ho.1]

theorem exec_readAttribute_value (ho : Open tag s) (ha : attrFits a = true) (h : attrRefusal s = none) (hi : s.cah.image = some i) :
    exec (.readAttribute tag a) s = .next (sendNotices (replied tag ⟨.good, .attribute_ (attrValue a i)⟩ s)) := by
  have h' : attrRefusal (heard s) = none := h
  refine (if_pos ha).trans ((immediate_open ho).trans (notifies ?_))
  simp only [h', heard_cah, hi, reply_heard ho.1]

/-! ## Write Attribute -/

theorem exec_writeAttribute (ho : Open tag s) (ha : attrFits a = true) (hv : attrValueFits v = true) :
    exec (.writeAttribute tag a v) s = .next (sendNotices (writeAttr tag a v (heard s))) :=
  (if_pos ⟨ha, hv⟩).trans (immediate_open ho)

theorem writeAttr_refused (hl : s.dlp.link = .up) (h : attrRefusal s = some r) :
    writeAttr tag a v (heard s) = replied tag (senseReply r) s := by
  have h' : attrRefusal (heard s) = some r := h
  simp only [writeAttr, h', reply_heard hl]

theorem writeAttr_cleaning (hl : s.dlp.link = .up) (h : attrRefusal s = none) (hc : cleaningCartridge s = true) :
    writeAttr tag a v (heard s) = replied tag (senseReply .cleaningCartridge) s := by
  have h' : attrRefusal (heard s) = none := h
  have hc' : cleaningCartridge (heard s) = true := hc
  simp only [writeAttr, h', hc', if_true, reply_heard hl]

/-- A user slot of a data cartridge takes the value. -/
theorem writeAttr_user {n : Nat} (hl : s.dlp.link = .up) (h : attrRefusal s = none) (hc : cleaningCartridge s = false)
    (hi : s.cah.image = some i) : writeAttr tag (.user n) v (heard s) =
      replied tag goodReply { s with cah.image := some { i with user := setSlot n v i.user } } := by
  have h' : attrRefusal (heard s) = none := h
  have hc' : cleaningCartridge (heard s) = false := hc
  simp only [writeAttr, h', hc', Bool.false_eq_true, if_false, heard_cah, hi, Option.map_some]
  exact reply_up hl

/-- What is no user slot is the drive's own to write. -/
theorem writeAttr_named (hl : s.dlp.link = .up) (h : attrRefusal s = none) (hc : cleaningCartridge s = false)
    (ha : ∀ n, a ≠ .user n) : writeAttr tag a v (heard s) = replied tag (senseReply .badAttribute) s := by
  have h' : attrRefusal (heard s) = none := h
  have hc' : cleaningCartridge (heard s) = false := hc
  rw [← reply_heard hl]
  cases a with
  | user n => exact absurd rfl (ha n)
  | _ => simp only [writeAttr, h', hc', Bool.false_eq_true, if_false]

theorem cleaningCartridge_image (hi : s.cah.image = some i) : cleaningCartridge s = (i.cartType == .cleaning) := by
  simp only [cleaningCartridge, hi]

end

/-- Settles O23: the refusals that both commands share come first, and then the table of R132 for what is written. -/
theorem attributesAreReadAndWritten : Obligations.AttributesAreReadAndWritten := by
  intro tag a i s ho ha
  have hl := ho.1
  refine ⟨fun he hs hr hi => ?readable, fun hs => ?noCartridge, fun he hs hr => ?unreadable⟩
  case readable =>
    have h := attrRefusal_none he hs hr
    have hc := cleaningCartridge_image hi
    refine ⟨exec_readAttribute_value ho ha h hi, fun n v hn hv ht => ?_, fun v hn hv ht => ?_, fun v hv ht => ?_⟩
    · subst hn
      exact (exec_writeAttribute ho ha hv).trans (notifies (writeAttr_user hl h (by rw [hc, ht]; rfl) hi))
    · exact (exec_writeAttribute ho ha hv).trans (notifies (writeAttr_named hl h (by rw [hc, ht]; rfl) hn))
    · exact (exec_writeAttribute ho ha hv).trans (notifies (writeAttr_cleaning hl h (by rw [hc, ht]; rfl)))
  case noCartridge =>
    have h := attrRefusal_noCartridge hs
    exact ⟨exec_readAttribute_refused ho ha h, fun v hv => (exec_writeAttribute ho ha hv).trans (notifies (writeAttr_refused hl h))⟩
  case unreadable =>
    have h := attrRefusal_unreadable he hs hr
    exact ⟨exec_readAttribute_refused ho ha h, fun v hv => (exec_writeAttribute ho ha hv).trans (notifies (writeAttr_refused hl h))⟩

end Sys2Proof.Machine
end

section
/-! SUPPORT. The eject push and what it leaves of the drive (R139, R145, R187). -/

namespace Sys2Proof.Machine

section
variable {s : State}

/-! ## The end of the push (log 2) -/

theorem exec_ejectPush_idle (h : s.cah.pushing = false) : exec .ejectPushDone s = .next s ∧ exec .ejectPushTimeout s = .next s := by
  simp [exec, execEjectPushDone, execEjectPushTimeout, h]

theorem exec_ejectPush (h : s.cah.pushing = true) : exec .ejectPushDone s = .next (finish (ejectDone s))
    ∧ exec .ejectPushTimeout s = .next (finish (becomeStuck .ejectFailed s)) := by
  simp [exec, execEjectPushDone, execEjectPushTimeout, h]

/-! ## The cartridge is out (R13, R14, R122, R145) -/

/-- A drive with no cartridge: no image and no mode, an empty directory that is not valid, and no format cap of its own. -/
def pushedOut (s : State) : State := forgetDirectory (setFormatCap 6 { s with
  cah.state := .empty
  cah.pushing := false
  cah.cartridge := none
  cah.sensedType := none
  cah.writeProtected := false
  cah.cmReadable := false
  cah.image := none
  cah.mode := none
  cah.negotiated := none
  cah.mediaOp := none })

theorem pushedOut_frame (s : State) : (pushedOut s).dlp = s.dlp ∧ EventsRise s (pushedOut s)
    ∧ (pushedOut s).moc = { s.moc with formatCap := 6 }
    ∧ (pushedOut s).fmc = { s.fmc with
        directory := []
        eod := EodPos.empty
        directoryValid := false
        filemarks := 0
        earlyWarning := earlyWarningAt EodPos.empty }
    ∧ (pushedOut s).cah = { s.cah with
        state := .empty
        pushing := false
        cartridge := none
        sensedType := none
        writeProtected := false
        cmReadable := false
        image := none
        mode := none
        negotiated := none
        mediaOp := none } := by
  refine ⟨?_, (EventsRise.of_events_eq ?_).trans (setEarlyWarning_rises _), ?_, ?_, ?_⟩
  all_goals simp [pushedOut, forgetDirectory, setFormatCap]

/-! ## Custody and the event (R145, R146, R148) -/

/-- The drive before the Eject at the head is answered: a question is refused, custody is the library's, and the event is latched. -/
def ejected (s : State) : State :=
  latch .cartridgeEjected { passCustody .library (settleQuestion false (pushedOut s)) with cah.grace := none }

/-- A settled question, or none: nothing but custody, the tags, what is sent and the Event Set. -/
theorem settleQuestion_refused_frame (s : State) : (settleQuestion false s).fmc = s.fmc ∧ (settleQuestion false s).moc = s.moc
    ∧ (settleQuestion false s).dlp = { s.dlp with tags := (settleQuestion false s).dlp.tags }
    ∧ (settleQuestion false s).cah = { s.cah with question := none, grace := (settleQuestion false s).cah.grace }
    ∧ EventsRise s (settleQuestion false s) := by
  cases hq : s.cah.question with
  | none =>
    rw [settleQuestion_none false hq]
    exact ⟨rfl, rfl, rfl, by rw [← hq], .refl s⟩
  | some q =>
    obtain ⟨hfmc, hmoc, -, hdlp, hcah, hrise⟩ := settleQuestion_asked_frame false hq
    exact ⟨hfmc, hmoc, hdlp, hcah, hrise⟩

theorem ejected_frame (s : State) : (ejected s).fmc = (pushedOut s).fmc ∧ (ejected s).moc = (pushedOut s).moc
    ∧ (ejected s).dlp = { s.dlp with tags := (ejected s).dlp.tags }
    ∧ (ejected s).cah = { (pushedOut s).cah with question := none, holder := .library, grace := none }
    ∧ (s.events.length = 25 → (flagsOf 6 (ejected s).events).latched = true) := by
  obtain ⟨hfmc, hmoc, hdlp, hcah, hrise⟩ := settleQuestion_refused_frame (pushedOut s)
  obtain ⟨-, hpdlp, -, hpfmc, hpmoc, -, hpcah, hprise⟩ := passCustody_frame .library (settleQuestion false (pushedOut s))
  obtain ⟨hsdlp, hsrise, -, -, -⟩ := pushedOut_frame s
  simp only [ejected, latch_fmc, latch_moc, latch_dlp, latch_cah]
  refine ⟨hpfmc.trans hfmc, hpmoc.trans hmoc, ?_, ?_, fun hl => ?_⟩
  · rw [hpdlp, hdlp, hsdlp]
  · rw [hpcah, hcah]
  · exact latched_after (e := .cartridgeEjected) (.refl _) ((hsrise.trans (hrise.trans hprise)).1.trans hl)

/-! ## The Eject at the head (R145, R171) -/

/-- An Eject at the head that has waited for the push is answered. -/
def ejectAnswered (s : State) : State :=
  match headEntry s, s.dlp.run.phase with
  | some ⟨_, .eject⟩, .ejecting => finishHead goodReply s
  | _, _ => s

theorem ejectDone_eq (s : State) : ejectDone s = ejectAnswered (ejected s) := rfl

theorem ejectAnswered_frame (s : State) : (ejectAnswered s).cah = s.cah ∧ (ejectAnswered s).fmc = s.fmc
    ∧ (ejectAnswered s).moc = s.moc ∧ EventsRise s (ejectAnswered s) := by
  unfold ejectAnswered
  split
  · exact ⟨by simp, by simp, by simp, finishHead_rises s _⟩
  · exact ⟨rfl, rfl, rfl, .refl s⟩

theorem ejectAnswered_replies {q : QEntry} (hq : s.dlp.queue = [q]) (hc : q.cmd = .eject) (hrun : s.dlp.run = { phase := .ejecting })
    (hl : s.dlp.link = .up) : (ejectAnswered s).dlp.queue = [] ∧ (ejectAnswered s).out = s.out ++ [.reply q.tag goodReply] := by
  obtain ⟨tag, cmd⟩ := q
  cases hc
  simp [ejectAnswered, headEntry, hq, hrun, finishHead, reply_up hl]

end

/-- Settles O46: the push that ends empties the drive block by block, and the one that runs out of time is a failed THREADER. -/
theorem ejectEmptiesTheDrive : Obligations.EjectEmptiesTheDrive := by
  intro s
  refine ⟨exec_ejectPush_idle, fun h => ⟨?done, ?stuck⟩⟩
  case done =>
    obtain ⟨-, -, hoMoc, hoFmc, hoCah⟩ := pushedOut_frame s
    obtain ⟨heFmc, heMoc, heDlp, heCah, heLatched⟩ := ejected_frame s
    obtain ⟨hcah, hfmc, hmoc, hrise⟩ := ejectAnswered_frame (ejected s)
    dsimp only
    rw [(exec_ejectPush h).1, ejectDone_eq, hcah, hfmc, hmoc, heCah, heFmc, heMoc, hoCah, hoFmc, hoMoc]
    refine ⟨rfl, rfl, rfl, rfl, rfl, rfl, rfl, rfl, rfl, rfl, rfl, rfl, rfl, rfl, rfl,
      fun hl => hrise.2 6 (heLatched hl), fun q hq hc hrun hl => ?_⟩
    obtain ⟨hqueue, hout⟩ := ejectAnswered_replies (s := ejected s) (q := q) (by rw [heDlp]; exact hq) hc (by rw [heDlp]; exact hrun)
      (by rw [heDlp]; exact hl)
    exact ⟨hqueue, by rw [hout, List.getLast?_concat]⟩
  case stuck =>
    obtain ⟨hcah, hfrg, hrise⟩ := becomeStuck_frame .ejectFailed s
    obtain ⟨hfaulted, hlatched⟩ := reportFault_freezes (stuck s) (u := .threader) .ejectFailed rfl
    dsimp only
    rw [(exec_ejectPush h).2, hcah, hfrg]
    exact ⟨rfl, rfl, rfl, hfaulted, fun hl => latched_after (e := .driveFaulted) (hlatched.trans hrise) hl⟩

end Sys2Proof.Machine
end

section
/-! SUPPORT. Power-On, the reset line, and the end of the buffer memory test in STARTING (R131, R146, R151, R182 to R187). -/

namespace Sys2Proof.Machine

/-- Settles O4: the reset state holds the Power-On values. -/
theorem resetIsSound : Obligations.ResetIsSound := powerOnValues_sound

/-- Settles O8: each field is the one that the Power-On state is built with. -/
theorem powerOnStartsTheDriveAfresh : Obligations.PowerOnStartsTheDriveAfresh := by
  intro j s
  refine ⟨powerOnState j s, rfl, rfl, rfl, rfl, rfl, rfl, rfl, rfl, rfl, rfl, rfl, rfl, rfl, rfl, rfl, rfl, rfl, rfl, rfl,
    fun f hf => List.eq_of_mem_replicate hf, rfl, rfl, rfl, rfl, rfl, rfl, rfl, rfl, rfl, ?_⟩
  cases hc : s.cah.cartridge <;> simp [powerOnState, cartridgeAtPower, hc]

section
variable {s t u : State}

/-! ## The store is loaded (R150, R186) -/

/-- What loading leaves of a drive: nothing is sent, no motion begins, the cartridge and the map of the tape stay. -/
structure LoadLeaves (s t : State) : Prop where
  out : t.out = s.out
  fmc : t.fmc = s.fmc
  wch : t.wch = s.wch
  rch : t.rch = s.rch
  cah : t.cah = s.cah
  operation : t.moc.operation = s.moc.operation
  link : t.dlp.link = s.dlp.link
  loaded : t.frg.storeLoaded = s.frg.storeLoaded
  events : t.events.length = s.events.length

theorem LoadLeaves.trans (h : LoadLeaves s t) (h' : LoadLeaves t u) : LoadLeaves s u where
  out := h'.out.trans h.out
  fmc := h'.fmc.trans h.fmc
  wch := h'.wch.trans h.wch
  rch := h'.rch.trans h.rch
  cah := h'.cah.trans h.cah
  operation := h'.operation.trans h.operation
  link := h'.link.trans h.link
  loaded := h'.loaded.trans h.loaded
  events := h'.events.trans h.events

theorem warnAll_leaves (bad : List Bool) (s : State) : LoadLeaves s (warnAll bad s) := by
  rw [warnAll_frame]
  exact ⟨rfl, rfl, rfl, rfl, rfl, rfl, rfl, rfl, (warnAll_rises bad s).1⟩

theorem withMask_length (m : Option (List Bool)) (es : List EventFlags) : (withMask m es).length = es.length := by
  cases m <;> simp [withMask]

theorem loadSettings_leaves (s : State) : LoadLeaves s (loadSettings s) :=
  (warnAll_leaves (badSettings s) s).trans ⟨rfl, rfl, rfl, rfl, rfl, rfl, rfl, rfl, withMask_length _ _⟩

theorem loadRetained_leaves (s : State) : LoadLeaves s (loadRetained s) := by
  refine (warnAll_leaves (badRetained s) s).trans ?_
  unfold loadRetained setConditionCap
  dsimp only
  constructor
  all_goals simp only [applyCap_frame]
  all_goals rfl

theorem loadHistory_leaves (s : State) : LoadLeaves s (loadHistory s) := by
  unfold loadHistory
  dsimp only
  split
  all_goals exact ⟨rfl, rfl, rfl, rfl, rfl, rfl, rfl, rfl, rfl⟩

/-- The store's items loaded, before the effective policies take the settings. -/
def itemsLoaded (s : State) : State := loadHistory (loadRetained (loadSettings s))

theorem itemsLoaded_leaves (s : State) : LoadLeaves s (itemsLoaded s) :=
  (loadSettings_leaves s).trans ((loadRetained_leaves _).trans (loadHistory_leaves _))

theorem loadStore_eq (s : State) : loadStore s = refreshEffective (itemsLoaded s) := rfl

/-- The policies and Auto-Thread in force become the working copies, and that is all (R150). -/
theorem refreshEffective_cah (s : State) : (refreshEffective s).cah = { s.cah with
    libraryPolicy := (refreshEffective s).pst.libraryPolicy
    linkPolicy := (refreshEffective s).pst.linkPolicy
    autoThread := (refreshEffective s).pst.autoThread } := rfl

/-! ## READY (R183) -/

/-- A cartridge that does not wait in NEGOTIATED stays as it is when the drive becomes READY. -/
theorem driveReady_stays (h : s.cah.state ≠ .negotiated) : (driveReady s).cah = s.cah ∧ (driveReady s).out = s.out
    ∧ (driveReady s).dlp = s.dlp ∧ (driveReady s).fmc = s.fmc ∧ (driveReady s).wch = s.wch ∧ (driveReady s).rch = s.rch
    ∧ (driveReady s).pst = s.pst ∧ (driveReady s).frg.condition = .ready ∧ (driveReady s).frg.wasReady = true
    ∧ (driveReady s).frg.resetWork = none ∧ (driveReady s).frg.storeLoaded = s.frg.storeLoaded
    ∧ EventsRise (latch .driveReady s) (driveReady s) := by
  unfold driveReady
  dsimp only
  split
  · rw [startNegotiated_stays (.inl (by simpa using h))]
    simp only [latchAll_frame, latch_cah, latch_out, latch_dlp, latch_fmc, latch_wch, latch_rch, latch_pst, latch_frg]
    exact ⟨trivial, trivial, trivial, trivial, trivial, trivial, trivial, trivial, trivial, trivial, trivial,
      (EventsRise.of_events_eq rfl).trans (latchAll_rises _ _)⟩
  · rw [startNegotiated_stays (.inl (by exact h))]
    exact ⟨rfl, rfl, rfl, rfl, rfl, rfl, rfl, rfl, rfl, rfl, rfl, .of_events_eq rfl⟩

/-! ## What the drive finds (R146, R151, R184) -/

theorem findCartridge_none (stages : Nat) (h : s.cah.cartridge = none) : findCartridge stages s = driveReady s := by
  simp only [findCartridge, h]

variable {c : Cartridge}

theorem findCartridge_unthreaded (hc : s.cah.cartridge = some c) (hf : s.cah.found = true) :
    findCartridge 0 s = driveReady (seat c (recoverCustody { s with cah.found := false })) := by
  simp [findCartridge, hc, hf]

/-- A cartridge found with stages of the tape path done, and its recovery begun. -/
def stagesFound (c : Cartridge) (stages : Nat) (s : State) : State := { s with
  frg.condition := .recovering
  frg.resetWork := none
  cah.found := false
  cah.state := .unthreading
  cah.recovering := true
  cah.sensedType := some c.notch
  cah.writeProtected := c.writeProtected
  cah.stack := stageOrder.take (min stages 4) }

theorem findCartridge_stages {stages : Nat} (hc : s.cah.cartridge = some c) (hf : s.cah.found = true) (h : 1 ≤ stages) :
    findCartridge stages s = resumeRecovery (stagesFound c stages s) := by
  simp [findCartridge, hc, hf, Nat.one_le_iff_ne_zero.1 h, stagesFound]

/-- A fresh seat latches Cartridge Seated (R131). -/
theorem seat_rises (c : Cartridge) (s : State) : EventsRise (latch .cartridgeSeated s) (seat c s) := .of_events_eq rfl

/-- Custody after a recovery is the library's, whatever was asked. -/
theorem recoverCustody_frame (s : State) : (recoverCustody s).cah.holder = .library
    ∧ (recoverCustody s).cah.found = s.cah.found ∧ (recoverCustody s).events.length = s.events.length := by
  obtain ⟨-, -, -, -, -, -, hcah, hrise⟩ := passCustody_frame .library s
  unfold recoverCustody
  split
  · next q hq =>
    split
    · next hr =>
      obtain ⟨-, -, -, -, hcah, hrise⟩ := settleQuestion_asked_frame true hq
      rw [hcah]
      exact ⟨hr, rfl, hrise.1⟩
    · rw [hcah]
      exact ⟨rfl, rfl, hrise.1⟩
  · rw [hcah]
    exact ⟨rfl, rfl, hrise.1⟩

/-! ## The recovery begins (R184) -/

/-- No stage in progress, and none to follow. -/
def recoveryCleared (s : State) : State := { s with
  cah.stageWork := none
  cah.unwind := none
  moc.servoLost := if s.moc.motion = Motion.halted then 1 else s.moc.servoLost }

/-- From the WRAP stage the tape is tensioned. -/
theorem resumeRecovery_tensions (h : s.cah.stack.length = 4) : resumeRecovery s = beginPush .tension 1 (recoveryCleared s) := by
  simp only [resumeRecovery, h]
  rfl

/-- Below it the stages are popped. -/
theorem resumeRecovery_pops (h : s.cah.stack.length < 4) : resumeRecovery s = unwindStack .recovery (recoveryCleared s) := by
  unfold resumeRecovery
  dsimp only
  split
  · omega
  · omega
  · omega
  · rfl

/-- The work in hand when a recovery has begun on a tape at rest with 1 to 4 stages done. -/
def recoveryStage (stages : Nat) : StageWork :=
  if stages = 4 then { stage := .tension, push := true, attempt := 1, timer := 0 }
  else { stage := stageOrder.getD (stages - 1) .seatLock, push := false, attempt := 1, timer := 0 }

theorem stageOrder_top {stages : Nat} (h1 : 1 ≤ stages) (h4 : stages ≤ 4) :
    stageOrder.take (min stages 4) = stageOrder.take (stages - 1) ++ [stageOrder.getD (stages - 1) .seatLock] := by
  interval_cases stages <;> rfl

theorem resumeRecovery_begins {stages : Nat} (h1 : 1 ≤ stages) (h4 : stages ≤ 4)
    (hs : s.cah.stack = stageOrder.take (min stages 4)) :
    (resumeRecovery s).frg = s.frg ∧ (resumeRecovery s).cah.state = s.cah.state
      ∧ (resumeRecovery s).cah.recovering = s.cah.recovering ∧ (resumeRecovery s).cah.stack = s.cah.stack
      ∧ (s.moc.operation = none → (resumeRecovery s).cah.stageWork = some (recoveryStage stages)) := by
  have hlength : s.cah.stack.length = stages := by
    rw [hs, List.length_take, stageOrder, List.length_cons]
    simp
    omega
  rcases Nat.lt_or_eq_of_le h4 with hlt | rfl
  · have htop : (recoveryCleared s).cah.stack = _ := hs.trans (stageOrder_top h1 h4)
    rw [resumeRecovery_pops (by omega)]
    cases ho : s.moc.operation with
    | none =>
      rw [unwindStack_at_rest .recovery htop ho]
      exact ⟨rfl, rfl, rfl, rfl, fun _ => by rw [recoveryStage, if_neg (by omega)]⟩
    | some op =>
      rw [unwindStack_moving .recovery htop (by exact Option.isSome_of_eq_some ho)]
      exact ⟨rfl, rfl, rfl, rfl, fun h => by cases h⟩
  · rw [resumeRecovery_tensions hlength]
    exact ⟨rfl, rfl, rfl, rfl, fun _ => rfl⟩

/-! ## The test ends (R183, R187) -/

/-- Out of STARTING the link follows the line, and nothing else moves. -/
theorem linkFollows_frame (s : State) : (linkFollows s).out = s.out ∧ (linkFollows s).timeBase = s.timeBase
    ∧ (linkFollows s).events = s.events ∧ (linkFollows s).fmc = s.fmc ∧ (linkFollows s).wch = s.wch ∧ (linkFollows s).rch = s.rch
    ∧ (linkFollows s).moc = s.moc ∧ (linkFollows s).cah = s.cah ∧ (linkFollows s).frg = s.frg
    ∧ (linkFollows s).dlp.link = if s.dlp.signal then .awaitingHello else s.dlp.link := by
  unfold linkFollows
  split
  all_goals exact ⟨rfl, rfl, rfl, rfl, rfl, rfl, rfl, rfl, rfl, rfl⟩

/-- LOADING, once the test has passed and before the store is read. -/
def startingLoads (s : State) : State :=
  { linkFollows s with frg.condition := .loading, frg.testFailed := false, frg.storeLoaded := true }

/-- The failed test, before the fault is reported. -/
def startingFailed (s : State) : State := { linkFollows s with frg.testFailed := true }

theorem memoryTestEnds_passed (stages : Nat) (hc : s.frg.condition = .starting) (ha : s.frg.lineAsserted = false) :
    memoryTestEnds true stages s = findCartridge stages (loadStore (startingLoads s)) := by
  simp only [memoryTestEnds, hc, ha, and_self, true_or, if_true]
  rfl

theorem memoryTestEnds_failed (stages : Nat) (hc : s.frg.condition = .starting) (ha : s.frg.lineAsserted = false) :
    memoryTestEnds false stages s = reportFault .bufferMemory .memoryTest (startingFailed s) := by
  simp [memoryTestEnds, hc, ha, startingFailed]

/-- The store loaded at the end of STARTING: the policies and Auto-Thread in force are those loaded, and the link follows the line. -/
theorem startingLoaded_frame (s : State) :
    let t := loadStore (startingLoads s)
    t.out = s.out ∧ t.fmc = s.fmc ∧ t.wch = s.wch ∧ t.rch = s.rch
      ∧ t.cah = { s.cah with
          libraryPolicy := t.pst.libraryPolicy
          linkPolicy := t.pst.linkPolicy
          autoThread := t.pst.autoThread }
      ∧ t.moc.operation = s.moc.operation ∧ (t.dlp.link = if s.dlp.signal then .awaitingHello else s.dlp.link)
      ∧ t.frg.storeLoaded = true ∧ t.events.length = s.events.length := by
  obtain ⟨hout, -, hevents, hfmc, hwch, hrch, hmoc, hcah, -, hlink⟩ := linkFollows_frame s
  have h := itemsLoaded_leaves (startingLoads s)
  dsimp only
  rw [loadStore_eq, refreshEffective_cah]
  generalize itemsLoaded (startingLoads s) = u at h ⊢
  rw [h.cah.trans hcah]
  exact ⟨h.out.trans hout, h.fmc.trans hfmc, h.wch.trans hwch, h.rch.trans hrch, rfl, h.operation.trans (congrArg Moc.operation hmoc),
    h.link.trans hlink, h.loaded, h.events.trans (congrArg List.length hevents)⟩

theorem startingFailed_frame (s : State) : (startingFailed s).out = s.out ∧ (startingFailed s).timeBase = s.timeBase
    ∧ (startingFailed s).events = s.events ∧ (startingFailed s).fmc = s.fmc ∧ (startingFailed s).moc = s.moc
    ∧ (startingFailed s).cah = s.cah ∧ (startingFailed s).frg = { s.frg with testFailed := true } := by
  obtain ⟨hout, htime, hevents, hfmc, -, -, hmoc, hcah, hfrg, -⟩ := linkFollows_frame s
  exact ⟨hout, htime, hevents, hfmc, hmoc, hcah, congrArg (fun f : Frg => { f with testFailed := true }) hfrg⟩

/-- A fault does not touch what the Fault Register notes of the store and the test. -/
theorem reportFault_notes (u : FaultUnit) (k : FaultCause) (s : State) : (reportFault u k s).frg.testFailed = s.frg.testFailed
    ∧ (reportFault u k s).frg.storeLoaded = s.frg.storeLoaded := by
  unfold reportFault enterRecord copyRecord
  dsimp only
  repeat' split
  all_goals exact ⟨rfl, rfl⟩

end

/-- Settles O9: after the load, READY follows the fresh seat of a cartridge that no stage holds, and the recovery begins where stages are
found; a failed test is a fault that freezes the drive before anything is loaded. -/
theorem memoryTestEndsStarting : Obligations.MemoryTestEndsStarting := by
  intro stages s hstart hline
  have hpassed := memoryTestEnds_passed stages hstart hline
  obtain ⟨hout, hfmc, hwch, hrch, hcah, hoperation, hlink, hloaded, hevents⟩ := startingLoaded_frame s
  generalize loadStore (startingLoads s) = u at *
  refine ⟨fun hl hq hs hc => ⟨rfl, ?none⟩, fun c hl hc hf => ⟨rfl, ?found⟩, ⟨rfl, ?failed⟩⟩
  case none =>
    have hstate : u.cah.state ≠ .negotiated := by rw [hcah]; simp [hs]
    obtain ⟨rcah, rout, rdlp, rfmc, rwch, rrch, rpst, rready, rwas, rwork, rloaded, rrise⟩ := driveReady_stays hstate
    rw [hpassed, findCartridge_none stages (by rw [hcah]; exact hc), rcah, rout, rdlp, rfmc, rwch, rrch, rpst, rloaded, hcah]
    rw [hl] at hlink
    exact ⟨rready, rwas, hloaded, rwork, hlink, fun hlength => latched_after (e := .driveReady) rrise (hevents.trans hlength), rfl, rfl,
      rfl, hs, rfl, hfmc, hwch, hrch, hout⟩
  case found =>
    have hfound : u.cah.found = true := by rw [hcah]; exact hf
    have hcartridge : u.cah.cartridge = some c := by rw [hcah]; exact hc
    refine ⟨fun h0 => ?_, fun h1 h4 => ?_⟩
    · subst h0
      obtain ⟨holder, found, length⟩ := recoverCustody_frame { u with cah.found := false }
      rw [hpassed, findCartridge_unthreaded hcartridge hfound]
      obtain ⟨rcah, -, -, -, -, -, -, rready, -, -, -, rrise⟩ :=
        driveReady_stays (s := seat c (recoverCustody { u with cah.found := false })) (by simp [seat, refreshEffective])
      rw [rcah]
      refine ⟨rready, rfl, rfl, rfl, rfl, rfl, found, holder, fun hlength => ?_⟩
      exact latched_after (e := .cartridgeSeated) ((seat_rises c _).trans ((latch_rises _ _).trans rrise))
        (length.trans (hevents.trans hlength))
    · obtain ⟨bfrg, bstate, brecovering, bstack, bstage⟩ := resumeRecovery_begins (s := stagesFound c stages u) h1 h4 rfl
      rw [hpassed, findCartridge_stages hcartridge hfound h1, bfrg, bstate, brecovering, bstack]
      exact ⟨rfl, rfl, rfl, by rw [stagesFound, Nat.min_eq_left h4], fun ho => bstage (hoperation.trans ho)⟩
  case failed =>
    obtain ⟨fout, ftime, fevents, ffmc, fmoc, fcah, ffrg⟩ := startingFailed_frame s
    have hfailed := memoryTestEnds_failed stages hstart hline
    generalize startingFailed s = v at *
    obtain ⟨hfaulted, hlatched⟩ := reportFault_freezes (s := v) (u := .bufferMemory) .memoryTest rfl
    obtain ⟨htest, hstored⟩ := reportFault_notes .bufferMemory .memoryTest v
    have hopens := reportFault_opens (s := v) .bufferMemory .memoryTest
    rw [hfailed, htest, hstored]
    simp only [reportFault_frame]
    refine ⟨hfaulted, by rw [ffrg], by rw [ffrg], fun hnone => ?_, fun hl => ?_, fcah, fmoc, ffmc, fout⟩
    · rw [hopens (by rw [ffrg]; exact hnone), ffrg, ftime, fmoc, fcah, hstart]
    · exact latched_after (e := .driveFaulted) hlatched (by rw [fevents]; exact hl)

end Sys2Proof.Machine
end

section
/-! SUPPORT. The head condition: samples, and the rise of the Condition Level with its cap, its Cleaning Call and its events (R122, R153 to
R156). -/

namespace Sys2Proof.Machine

section
variable {s : State}

/-! ## The rise of the Condition Level (R122, R155, R156) -/

theorem testLevel_stays (h : (levelOf s.hcm.hci s.hcm.motionSeconds).rank ≤ s.hcm.level.rank) : testLevel s = s :=
  if_neg (Nat.not_lt.2 h)

theorem testLevel_above (h : s.hcm.level.rank < (levelOf s.hcm.hci s.hcm.motionSeconds).rank) :
    testLevel s = riseTo (levelOf s.hcm.hci s.hcm.motionSeconds) s := if_pos h

/-- A change of the cap limits the governor's target to it (R122). -/
theorem applyCap_target (s : State) : (applyCap s).sgv.target = min s.sgv.target (capOf s) := by
  unfold applyCap
  dsimp only
  split
  next h => exact (Nat.min_eq_right (Nat.le_of_lt h)).symm
  next h => exact (Nat.min_eq_left (Nat.le_of_not_lt h)).symm

theorem setConditionCap_sets (n : Nat) (s : State) : (setConditionCap n s).moc.conditionCap = n
    ∧ (setConditionCap n s).sgv.target = min s.sgv.target (min 6 (min s.moc.formatCap n)) :=
  ⟨by simp [setConditionCap], applyCap_target _⟩

theorem latchAll_latches {e : Event} {es : List Event} (he : e ∈ es) (hl : s.events.length = 25) :
    (flagsOf e.number (latchAll es s).events).latched = true := by
  induction es generalizing s with
  | nil => cases he
  | cons x es ih =>
    rcases List.mem_cons.1 he with rfl | hes
    · exact latched_after (latchAll_rises es (latch e s)) hl
    · exact ih hes ((latch_rises x s).1.trans hl)

/-- The level risen with its cap, its call and its events, before a rise to CRITICAL is reported (R155, R156). -/
def levelRisen (l : Level) (s : State) : State :=
  latchAll (riseEvents s.hcm.level l) (setConditionCap (levelCap l) { s with hcm.level := l, hcm.cleaningCall := true })

theorem riseTo_below (l : Level) (h : l ≠ .critical) : riseTo l s = levelRisen l s := if_neg h

theorem riseTo_critical : riseTo .critical s = reportFault .head .levelCritical (levelRisen .critical s) := rfl

theorem levelRisen_sets (l : Level) (s : State) : (levelRisen l s).hcm = { s.hcm with level := l, cleaningCall := true }
    ∧ (levelRisen l s).moc.conditionCap = levelCap l
    ∧ (levelRisen l s).sgv.target = min s.sgv.target (min 6 (min s.moc.formatCap (levelCap l)))
    ∧ (levelRisen l s).frg = s.frg := by
  obtain ⟨hcap, htarget⟩ := setConditionCap_sets (levelCap l) { s with hcm.level := l, hcm.cleaningCall := true }
  simp only [levelRisen, latchAll_frame]
  exact ⟨by simp [setConditionCap], hcap, htarget, by simp [setConditionCap]⟩

theorem levelRisen_latches {l : Level} {e : Event} (he : e ∈ riseEvents s.hcm.level l) (hl : s.events.length = 25) :
    (flagsOf e.number (levelRisen l s).events).latched = true := latchAll_latches he (by simpa [setConditionCap] using hl)

/-- What a rise sets stands after the report of CRITICAL too, which latches more and clears nothing (R155, R187). -/
theorem riseTo_sets (l : Level) (s : State) : (riseTo l s).hcm = (levelRisen l s).hcm ∧ (riseTo l s).moc = (levelRisen l s).moc
    ∧ (riseTo l s).sgv = (levelRisen l s).sgv ∧ EventsRise (levelRisen l s) (riseTo l s) := by
  by_cases h : l = .critical
  · subst h
    rw [riseTo_critical]
    exact ⟨by simp, by simp, by simp, reportFault_rises _ _ _⟩
  · rw [riseTo_below l h]
    exact ⟨rfl, rfl, rfl, .refl _⟩

end

/-- Settles O50: a level above is the rise `riseTo`, and the fault that CRITICAL reports leaves what the rise has set. -/
theorem levelOnlyRises : Obligations.LevelOnlyRises := by
  intro s
  refine ⟨testLevel_stays, fun habove => ?_⟩
  generalize hlevel : levelOf s.hcm.hci s.hcm.motionSeconds = l at *
  have hrise : testLevel s = riseTo l s := by rw [testLevel_above (hlevel ▸ habove), hlevel]
  obtain ⟨hhcm, hmoc, hsgv, hlatched⟩ := riseTo_sets l s
  obtain ⟨rhcm, rcap, rtarget, rfrg⟩ := levelRisen_sets l s
  rw [hrise, hhcm, hmoc, hsgv]
  refine ⟨rhcm, rcap, rtarget, fun hl e he => hlatched.2 _ (levelRisen_latches he hl), fun hc => ?_, by simp, by simp, by simp, by simp⟩
  rw [riseTo_below l hc, rfrg]

/-- Settles O51: the index after a sample is `hciAfter`, whatever the test of the level then makes of the rest. -/
theorem sampleMovesTheIndex : Obligations.SampleMovesTheIndex := by
  intro n s
  have hhci : (headSample n s).hcm.hci = (15 * s.hcm.hci + n) / 16 := by simp [hciAfter]
  refine ⟨rfl, hhci, fun hh hn => ?range, fun hclean => ?clean, rfl, rfl, rfl, rfl, rfl, rfl, rfl, rfl, rfl⟩
  case range => simpa using hciAfter_le hh hn
  case clean =>
    rw [hhci, hclean]
    constructor <;> omega

end Sys2Proof.Machine
end

section
/-! SUPPORT. The Parameter Store: what changes it, how its writes begin and how they end (R157, R185, R186). -/

namespace Sys2Proof.Machine

/-- Settles O7: of the effects a command can have, a start keeps the store, and the end of a store write is excluded. -/
theorem storeChangesOnlyWhenAWriteEnds : Obligations.StoreChangesOnlyWhenAWriteEnds := by
  intro c s t ht hc
  cases exec_effect (Keeps.refl (P := False) (s := s) False.elim) ht with
  | started j _ hstart => rw [hstart]; rfl
  | heldInStart _ hstart => rw [hstart]; rfl
  | stored ok _ hdone _ => exact absurd hdone (hc ok)
  | kept hkept => exact hkept.stored

section
variable {s : State} {w : StoreWrite} {rest : List StoreWrite}

/-! ## Writes that end (R186; log 2 and 11) -/

theorem storeWriteEnds_idle (ok : Bool) (h : s.pst.writes = []) : storeWriteEnds ok s = s := by
  unfold storeWriteEnds
  rw [h]

/-- The oldest write has ended: its content is in the store, or Equipment Warning is latched, and the Store Status says which. -/
def storeWritten (ok : Bool) (w : StoreWrite) (rest : List StoreWrite) (s : State) : State :=
  let u := { s with pst.writes := rest, pst.statusGood := ok }
  if ok then { u with pst.stored := s.pst.stored.write w } else latch .equipmentWarning u

/-- A write that no Save Settings waits for is answered to no one. -/
theorem storeWriteEnds_unanswered (ok : Bool) (h : s.pst.writes = w :: rest) (hw : ∀ t d, w ≠ .settings (some t) d) :
    storeWriteEnds ok s = storeWritten ok w rest s := by
  unfold storeWriteEnds
  rw [h]
  cases w with
  | settings tag d =>
    cases tag with
    | none => rfl
    | some t => exact absurd rfl (hw t d)
  | retained _ _ _ => rfl
  | faults _ _ => rfl

/-- A Save Settings is answered when its write has ended. -/
theorem storeWriteEnds_answered {t : Tag} {d : Stored} (ok : Bool) (h : s.pst.writes = .settings (some t) d :: rest) :
    storeWriteEnds ok s = dropTag t (reply t goodReply (storeWritten ok (.settings (some t) d) rest s)) := by
  unfold storeWriteEnds
  rw [h]
  rfl

end

/-- A command whose end is known is followed by the Event notice. -/
theorem notices {s t : State} (h : s = t) : (.next (sendNotices s) : Answer) = .next (sendNotices t) :=
  congrArg _ (congrArg sendNotices h)

/-- Settles O25: a Save Settings queues its write, and what the end of the oldest write leaves is `storeWritten`, answered or not. -/
theorem storeWritesBeginAndEnd : Obligations.StoreWritesBeginAndEnd := by
  refine ⟨fun tag s ho => ?begins, fun s w rest hs hw => ⟨?_, ?_⟩, fun s t d rest hs hup => ?saved, fun ok s hs => ?idle⟩
  case begins => exact immediate_open ho
  case saved =>
    refine notices ((storeWriteEnds_answered true hs).trans ?_)
    rw [reply_up (by exact hup)]
    rfl
  case idle => exact notices (storeWriteEnds_idle ok hs)
  all_goals exact notices (storeWriteEnds_unanswered _ hs hw)

end Sys2Proof.Machine
end

section
/-! SUPPORT. The cleaning pass: the use it takes, the end of its run, and the head restored (R159 to R163). -/

namespace Sys2Proof.Machine

section
variable {s : State}

/-! ## The use taken (R159, R160) -/

theorem beginCleaning_image {i : CmImage} (uses : Nat) (hi : s.cah.image = some i) : beginCleaning uses s = { s with
    cah.state := .cleaning
    cah.cleaningStep := some .decrement
    cah.usesBefore := uses
    cah.sect := 50 - uses
    cah.runLength := 0
    cah.aborted := false
    cah.image := some { i with remainingUses := uses - 1 } } := by
  simp [beginCleaning, hi]

theorem decrementEnds_idle (ok : Bool) (h : s.cah.cleaningStep ≠ some .decrement) : decrementEnds ok s = s := if_pos h

theorem writeMemory_takes {c : Cartridge} {i : CmImage} (hc : s.cah.cartridge = some c) (hi : s.cah.image = some i) :
    writeMemory s = { s with cah.cartridge := some { c with memory := i } } := by
  simp [writeMemory, hc, hi]

/-- The first stage of an empty Thread Stack is SEAT LOCK (R135). -/
theorem pushNext_first (h : s.cah.stack = []) :
    pushNext s = { s with cah.stageWork := some { stage := .seatLock, push := true, attempt := 1, timer := 0 } } := by
  simp [pushNext, h, stageOrder, beginPush]

/-- A decrement written begins the thread of the pass. -/
theorem decrementEnds_threads {c : Cartridge} {i : CmImage} (hstep : s.cah.cleaningStep = some .decrement)
    (hc : s.cah.cartridge = some c) (hi : s.cah.image = some i) (ha : s.cah.aborted = false) (hs : s.cah.stack = []) :
    decrementEnds true s = { s with
      cah.cartridge := some { c with memory := i }
      cah.cleaningStep := some .thread
      cah.stageWork := some { stage := .seatLock, push := true, attempt := 1, timer := 0 } } := by
  simp [decrementEnds, hstep, writeMemory_takes hc hi, ha, pushNext_first, hs]

/-- After an abort, a decrement written ends the pass HELD (R163). -/
theorem decrementEnds_aborted {c : Cartridge} {i : CmImage} (hstep : s.cah.cleaningStep = some .decrement)
    (hc : s.cah.cartridge = some c) (hi : s.cah.image = some i) (ha : s.cah.aborted = true) :
    decrementEnds true s = latch .cleaningIncomplete { s with
      cah.cartridge := some { c with memory := i }
      cah.state := .held
      cah.cleaningStep := none
      cah.aborted := false } := by
  simp [decrementEnds, hstep, writeMemory_takes hc hi, ha]

/-- A decrement not written ends the pass HELD with a fault of the CM READER. -/
theorem decrementEnds_failed (hstep : s.cah.cleaningStep = some .decrement) :
    decrementEnds false s = latch .cleaningIncomplete (reportFault .cmReader .cmWrite
      { s with cah.state := .held, cah.cleaningStep := none, cah.aborted := false }) := by
  simp [decrementEnds, hstep]

/-- A fault that does not freeze the drive, where no record is open, opens one, copies it to the store and warns (R187). -/
theorem reportFault_warning {u : FaultUnit} (c : FaultCause) (hu : u.freezes = false) (h : s.frg.current = none) :
    reportFault u c s = latch .equipmentWarning (copyRecord { s with
      frg.current := some [⟨u, c, s.timeBase, s.frg.condition, s.moc.motion, s.cah.state⟩] }) := by
  simp [reportFault, enterRecord, enterFault, h, hu]

/-! ## The run ends (R161, R162) -/

theorem cleaningRunEnds_idle (h : s.cah.cleaningStep ≠ some .run) : cleaningRunEnds s = s := if_neg fun hrun => h hrun.1

theorem cleaningRunEnds_rewinds (hstep : s.cah.cleaningStep = some .run) (hm : s.moc.motion = .streaming)
    (ho : s.moc.operation = none) (hw : s.moc.work = .cleaningRun) :
    cleaningRunEnds s = cleaningRewind { s with cah.runLength := 15000 } := if_pos ⟨hstep, hm, ho, hw⟩

/-- A streaming tape ramps to 0 (R114). -/
theorem stopTape_streaming (hm : s.moc.motion = .streaming) (ho : s.moc.operation = none) :
    (stopTape s).moc.motion = .ramping
      ∧ (stopTape s).moc.operation = some ⟨.stopping, none, [.ramp (some 0)], false⟩ := by
  simp [stopTape, hm, ho, enterPhase]

/-- A seek asked for while an operation aimed at no place is in progress waits for it (R112). -/
theorem startSeek_waits {w : Work} {p : Place} {op : Operation} (hm : canMove s = true) (ho : s.moc.operation = some op)
    (ha : op.aim = none) : startSeek w p s = { s with moc.waiting := some ⟨.seek, w, p, none⟩ } := by
  simp [startSeek, request, hm, ho, meetsRequest, ha]

/-- The rewind of a pass whose tape streams waits for the stop (R112, R162). -/
theorem cleaningRewind_streaming (hm : s.moc.motion = .streaming) (ho : s.moc.operation = none) :
    let u := stopTape { s with cah.cleaningStep := some .unthread }
    cleaningRewind s = { u with moc.waiting := some ⟨.seek, .cleaningRewind, botPlace, none⟩ } ∧ u.moc.motion = .ramping
      ∧ u.moc.operation = some ⟨.stopping, none, [.ramp (some 0)], false⟩ := by
  obtain ⟨hmotion, hoperation⟩ := stopTape_streaming (s := { s with cah.cleaningStep := some .unthread }) hm ho
  exact ⟨startSeek_waits (by simp [canMove, hmotion]) hoperation rfl, hmotion, hoperation⟩

/-! ## The head restored (R162) -/

/-- The stack emptied after a whole pass: HELD, with the head condition and its cap as they are after cleaning. -/
def headRestored (s : State) : State := setConditionCap 6 { s with
  cah.stageWork := none
  cah.unwind := none
  cah.state := .held
  cah.mediaOp := none
  cah.cleaningStep := none
  hcm.hci := 0
  hcm.level := .normal
  hcm.motionSeconds := 0
  hcm.cleaningCall := false }

theorem headRestored_sets (s : State) : (headRestored s).cah.state = .held ∧ (headRestored s).cah.cleaningStep = none
    ∧ (headRestored s).hcm = { s.hcm with hci := 0, level := .normal, motionSeconds := 0, cleaningCall := false }
    ∧ (headRestored s).moc.conditionCap = 6 ∧ (headRestored s).events = s.events ∧ (headRestored s).pst = s.pst := by
  simp [headRestored, setConditionCap]

theorem stackEmptied_cleaned (hu : s.cah.unwind = some .cleaningDone) (ha : s.cah.aborted = false) :
    stackEmptied s = latch .cleaningDone (storeRetained (headRestored s)) := by
  simp [stackEmptied, hu, ha, headRestored]

end

/-- Settles O42: each end of the decrement and of the run is the equation of its case above, and the emptied stack is `headRestored`
with its event and its store write. -/
theorem cleaningPassRuns : Obligations.CleaningPassRuns := by
  refine ⟨fun i s hs hc hi ht _ => ?begins, fun s hstep ok => finishes (decrementEnds_idle ok hstep),
    fun c i s hstep hc hi => ⟨fun ha hs => finishes (decrementEnds_threads hstep hc hi ha hs),
      fun ha => finishes (decrementEnds_aborted hstep hc hi ha), fun hcurrent => ?failed⟩,
    fun s hstep hm ho hw => ?run, fun s hstep => finishes (cleaningRunEnds_idle hstep), fun s hu ha => ?restored⟩
  case begins => rw [startNegotiated_cleaning hs hc hi ht, beginCleaning_image _ hi]
  case failed =>
    refine finishes ((decrementEnds_failed hstep).trans ?_)
    rw [reportFault_warning _ rfl (by exact hcurrent)]
    rfl
  case run =>
    obtain ⟨hrewind, hmotion, hoperation⟩ := cleaningRewind_streaming (s := { s with cah.runLength := 15000 }) hm ho
    dsimp only
    rw [cleaningRunEnds_rewinds hstep hm ho hw, hrewind]
    refine ⟨?_, by simp, by simp, hmotion, hoperation, rfl, by simp, by simp⟩
    exact finishes ((cleaningRunEnds_rewinds hstep hm ho hw).trans hrewind)
  case restored =>
    obtain ⟨hstate, hstep, hhcm, hcap, hevents, hpst⟩ := headRestored_sets s
    dsimp only
    rw [stackEmptied_cleaned hu ha]
    simp only [storeRetained, latch_cah, latch_hcm, latch_moc, latch_pst, beginStoreWrite_cah, beginStoreWrite_hcm,
      beginStoreWrite_moc, beginStoreWrite_pst, hhcm, hpst]
    exact ⟨hstate, hstep, trivial, trivial, trivial, trivial, hcap,
      fun hl => latched_after (e := .cleaningDone) (.refl _) (by simpa [hevents] using hl), trivial⟩

end Sys2Proof.Machine
end

section
/-! SUPPORT. The Event Set: latches, masks, clears and the Event notice (R175 to R177). -/

namespace Sys2Proof.Machine

section
variable {es : List EventFlags} {g : EventFlags → EventFlags} {m n : Nat} {ns : List Nat}

/-! ## One event changed -/

/-- A change reaches the event that is named and no other. -/
theorem flagsOf_changeEvent (hm : 1 ≤ m) (hn : 1 ≤ n) (hlen : n ≤ es.length) :
    flagsOf n (changeEvent m g es) = if n = m then g (flagsOf n es) else flagsOf n es := by
  have hin : n - 1 < es.length := by omega
  unfold flagsOf changeEvent
  rw [List.getD_eq_getElem?_getD, List.getD_eq_getElem?_getD, List.getElem?_modify]
  by_cases h : n = m
  · simp [h, List.getElem?_eq_getElem (h ▸ hin)]
  · simp [h, show ¬ m - 1 = n - 1 by omega]

/-- The same change of two events may be made in either order. -/
theorem changeEvent_comm (m n : Nat) (g : EventFlags → EventFlags) (es : List EventFlags) :
    changeEvent m g (changeEvent n g es) = changeEvent n g (changeEvent m g es) := by
  by_cases h : m - 1 = n - 1
  · unfold changeEvent
    rw [h]
  · apply List.ext_getElem?
    intro i
    simp only [changeEvent, List.getElem?_modify]
    by_cases hi : n - 1 = i
    · simp [hi, show ¬ m - 1 = i by omega]
    · simp [hi]

/-- The 25 events in the order of R175's table. -/
def eventTable : List Event :=
  [.cartridgeSeated, .incompatibleMedium, .threadComplete, .threadFailed, .unthreadComplete, .cartridgeEjected,
    .custodyChanged, .custodyAsked, .operationComplete, .earlyWarning, .writeFailure, .readFailure, .directoryInvalid,
    .directoryRebuilt, .cmWriteFailed, .cleaningAdvised, .cleaningRequired, .driveReady, .cleaningCritical, .cleaningDone,
    .cleaningIncomplete, .cleaningExpired, .equipmentWarning, .driveFaulted, .linkError]

theorem eventTable_number (e : Event) : eventTable[e.number - 1]? = some e := by cases e <;> rfl

theorem Event.number_injective {a b : Event} (h : a.number = b.number) : a = b :=
  Option.some.inj (by rw [← eventTable_number a, ← eventTable_number b, h])

/-! ## Many events changed -/

@[simp] theorem changeEvents_length (ns : List Nat) (g : EventFlags → EventFlags) (es : List EventFlags) :
    (changeEvents ns g es).length = es.length := by
  induction ns generalizing es with
  | nil => rfl
  | cons m ns ih => exact (ih _).trans (by simp [changeEvent])

/-- A change that adds nothing when made twice reaches every event that is named, and no other. -/
theorem flagsOf_changeEvents (hg : ∀ f, g (g f) = g f) (hns : ∀ m ∈ ns, 1 ≤ m) (hn : 1 ≤ n) (hlen : n ≤ es.length) :
    flagsOf n (changeEvents ns g es) = if n ∈ ns then g (flagsOf n es) else flagsOf n es := by
  induction ns generalizing es with
  | nil => rfl
  | cons m ns ih =>
    have hstep : changeEvents (m :: ns) g es = changeEvents ns g (changeEvent m g es) := rfl
    have hlen' : n ≤ (changeEvent m g es).length := by simpa [changeEvent] using hlen
    rw [hstep, ih (fun k hk => hns k (List.mem_cons_of_mem _ hk)) hlen',
      flagsOf_changeEvent (hns m List.mem_cons_self) hn hlen]
    by_cases h : n = m <;> by_cases h' : n ∈ ns <;> simp [h, h', hg]

theorem EventFlags.mask_mask (f : EventFlags) : f.mask.mask = f.mask := rfl

theorem EventFlags.unmask_unmask (f : EventFlags) : f.unmask.unmask = f.unmask := by simp [EventFlags.unmask]

theorem EventFlags.clear_clear (f : EventFlags) : f.clear.clear = f.clear := rfl

theorem pos_of_eventNumbers (h : ns.all eventNumberOk = true) : ∀ m ∈ ns, 1 ≤ m := by
  intro m hm
  have hok := List.all_eq_true.1 h m hm
  simp only [eventNumberOk, Bool.and_eq_true, decide_eq_true_eq] at hok
  exact hok.1

/-! ## Set Event Mask and Clear Events (R176, R177) -/

/-- What a Set Event Mask makes of one event: named among those to unmask, it ends unmasked (log 43). -/
theorem flagsOf_setMask {mask unmask : List Nat} (hok : (mask ++ unmask).all eventNumberOk = true) (hn : 1 ≤ n)
    (hlen : n ≤ es.length) :
    let masked := if n ∈ mask then (flagsOf n es).mask else flagsOf n es
    flagsOf n (changeEvents unmask EventFlags.unmask (changeEvents mask EventFlags.mask es)) =
      if n ∈ unmask then masked.unmask else masked := by
  rw [List.all_append, Bool.and_eq_true] at hok
  rw [flagsOf_changeEvents EventFlags.unmask_unmask (pos_of_eventNumbers hok.2) hn (by simpa using hlen),
    flagsOf_changeEvents EventFlags.mask_mask (pos_of_eventNumbers hok.1) hn hlen]

theorem clearedEvents_ok {named : Option (List Nat)} :
    (clearedEvents named).all eventNumberOk = (named.getD []).all eventNumberOk := by
  cases named with
  | none => decide
  | some l => rfl

theorem mem_clearedEvents {named : Option (List Nat)} (h1 : 1 ≤ n) (h25 : n ≤ 25) :
    n ∈ clearedEvents named ↔ named = none ∨ n ∈ named.getD [] := by
  cases named with
  | none =>
    simp only [clearedEvents, List.mem_map, List.mem_range, true_or, iff_true]
    exact ⟨n - 1, by omega, by omega⟩
  | some l => simp [clearedEvents]

variable {tag : Tag} {s : State}

theorem exec_setEventMask {mask unmask : List Nat} (ho : Open tag s) :
    exec (.setEventMask tag mask unmask) s = .next (sendNotices (setMask tag mask unmask (heard s))) := immediate_open ho

theorem setMask_good {mask unmask : List Nat} (hl : s.dlp.link = .up) (hok : (mask ++ unmask).all eventNumberOk = true) :
    setMask tag mask unmask (heard s) = replied tag goodReply { s with
      events := changeEvents unmask EventFlags.unmask (changeEvents mask EventFlags.mask s.events) } := by
  rw [setMask, if_pos hok]
  exact reply_up hl

theorem setMask_refused {mask unmask : List Nat} (hl : s.dlp.link = .up) (hbad : (mask ++ unmask).all eventNumberOk = false) :
    setMask tag mask unmask (heard s) = replied tag (senseReply .badValue) s := by
  rw [setMask, hbad, if_neg Bool.false_ne_true]
  exact reply_heard hl _ _

theorem exec_clearEvents {named : Option (List Nat)} (ho : Open tag s) :
    exec (.clearEvents tag named) s = .next (sendNotices (clearNamed tag named (heard s))) := immediate_open ho

theorem clearNamed_good {named : Option (List Nat)} (hl : s.dlp.link = .up) (hok : (named.getD []).all eventNumberOk = true) :
    clearNamed tag named (heard s) = replied tag goodReply { s with
      events := changeEvents (clearedEvents named) EventFlags.clear s.events } := by
  rw [clearNamed, clearedEvents_ok, if_pos hok]
  exact reply_up hl

theorem clearNamed_refused {named : Option (List Nat)} (hl : s.dlp.link = .up) (hbad : (named.getD []).all eventNumberOk = false) :
    clearNamed tag named (heard s) = replied tag (senseReply .badValue) s := by
  rw [clearNamed, clearedEvents_ok, hbad, if_neg Bool.false_ne_true]
  exact reply_heard hl _ _

/-! ## The Event notice (R176) -/

/-- A list of events numbered from `k` on gives each that is latched and unmasked, with its number and count. -/
theorem mem_noticeFrom {k c : Nat} : (n, c) ∈ noticeFrom k es ↔
    k ≤ n ∧ ∃ f, es[n - k]? = some f ∧ f.latched = true ∧ f.masked = false ∧ f.count = c := by
  induction es generalizing k with
  | nil => simp [noticeFrom]
  | cons f es ih =>
    have htail : (n, c) ∈ noticeFrom (k + 1) es ↔ k < n ∧ ∃ f', (f :: es)[n - k]? = some f'
        ∧ f'.latched = true ∧ f'.masked = false ∧ f'.count = c := by
      rw [ih]
      refine and_congr_right fun hlt => ?_
      rw [show n - k = n - (k + 1) + 1 by omega, List.getElem?_cons_succ]
    have hhead : (n, c) ∈ noticeFrom k (f :: es) ↔
        ((n = k ∧ f.count = c) ∧ f.latched = true ∧ f.masked = false) ∨ (n, c) ∈ noticeFrom (k + 1) es := by
      rw [noticeFrom]
      split
      · next hb =>
        obtain ⟨hlatched, hmasked⟩ : f.latched = true ∧ f.masked = false := by simpa using hb
        simp [hlatched, hmasked, eq_comm (a := c)]
      · next hb =>
        have hnot : ¬ (f.latched = true ∧ f.masked = false) := by simpa using hb
        simp [hnot]
    rw [hhead, htail]
    rcases lt_trichotomy n k with h | h | h
    · simp [Nat.not_le.2 h, h.ne, Nat.lt_asymm h]
    · simp [h, and_comm, and_assoc]
    · simp [h, h.le, h.ne']

/-- The notice lists what is latched and unmasked, by the numbers of the table. -/
theorem mem_noticeList {c : Nat} : (n, c) ∈ noticeList es ↔ 1 ≤ n ∧ n ≤ es.length ∧ (flagsOf n es).latched = true
    ∧ (flagsOf n es).masked = false ∧ (flagsOf n es).count = c := by
  rw [noticeList, mem_noticeFrom]
  refine and_congr_right fun hn => ?_
  by_cases hlen : n ≤ es.length
  · have hin : n - 1 < es.length := by omega
    simp [flagsOf, hlen, List.getElem?_eq_getElem hin]
  · simp [hlen, List.getElem?_eq_none (show es.length ≤ n - 1 by omega)]

theorem anyPending_iff : anyPending es = true ↔ ∃ f ∈ es, f.pending = true := by simp [anyPending]

/-- With nothing pending, or no link to send on, no notice is sent. -/
theorem sendNotices_idle (h : s.dlp.link ≠ .up ∨ ∀ f ∈ s.events, f.pending = false) : sendNotices s = s := by
  refine if_neg fun ⟨hup, hany⟩ => ?_
  obtain ⟨f, hf, hp⟩ := anyPending_iff.1 hany
  rcases h with h | h
  · exact h hup
  · rw [h f hf] at hp
    exact Bool.false_ne_true hp

end

/-- Settles O13: a latch is the change of one event by `EventFlags.latch`, and such changes commute. -/
theorem latchCountsAndPends : Obligations.LatchCountsAndPends := by
  refine ⟨fun f hf => ?first, fun f hf => ?again, fun e s _ => ⟨rfl, e.number_range⟩, rfl, fun _ _ => Event.number_injective,
    fun a b s => ?order⟩
  case first => simp [EventFlags.latch, hf]
  case again => simp [EventFlags.latch, hf]
  case order => exact congrArg (fun es => { s with events := es }) (changeEvent_comm _ _ _ _)

/-- Settles O15: the notice goes out with every pending flag cleared, and its list is `mem_noticeList`. -/
theorem noticesTellThePendingEvents : Obligations.NoticesTellThePendingEvents := fun _ =>
  ⟨fun hup hany => if_pos ⟨hup, anyPending_iff.2 hany⟩, sendNotices_idle, fun _ _ => mem_noticeList⟩

/-- Settles O14: each command changes the events it names by a change that adds nothing when made twice, and refuses a number outside
1..25. -/
theorem eventsAreMaskedAndCleared : Obligations.EventsAreMaskedAndCleared := by
  refine ⟨fun tag mask unmask s ho => ⟨fun hok => ⟨?masks, fun n h1 hn => ?maskFlags⟩, fun hbad => ?maskRefused⟩,
    fun tag named s ho => ⟨fun hok => ⟨?clears, fun n h1 hn h25 => ?clearFlags⟩, fun hbad => ?clearRefused⟩⟩
  case masks => exact (exec_setEventMask ho).trans (notifies (setMask_good ho.1 hok))
  case maskRefused => exact (exec_setEventMask ho).trans (notifies (setMask_refused ho.1 hbad))
  case maskFlags =>
    rw [flagsOf_setMask hok h1 hn]
    refine ⟨fun hu => ?_, fun hu hm => ?_, fun hu hm => ?_⟩
    · rw [if_pos hu]
      refine ⟨rfl, fun hl => ?_⟩
      have hlatched : (if n ∈ mask then (flagsOf n s.events).mask else flagsOf n s.events).latched = true := by
        split <;> exact hl
      simp only [EventFlags.unmask, hlatched, Bool.or_true]
    · rw [if_neg hu, if_pos hm]
      rfl
    · rw [if_neg hu, if_neg hm]
  case clears => exact (exec_clearEvents ho).trans (notifies (clearNamed_good ho.1 hok))
  case clearRefused => exact (exec_clearEvents ho).trans (notifies (clearNamed_refused ho.1 hbad))
  case clearFlags =>
    have hpos := pos_of_eventNumbers (clearedEvents_ok.trans hok)
    rw [flagsOf_changeEvents EventFlags.clear_clear hpos h1 hn]
    refine ⟨fun hnamed => ?_, fun hsome hnot => ?_⟩
    · rw [if_pos ((mem_clearedEvents h1 h25).2 hnamed)]
      rfl
    · rw [if_neg fun hmem => ((mem_clearedEvents h1 h25).1 hmem).elim hsome hnot]

end Sys2Proof.Machine
end

section
/-! SUPPORT. A step takes one command and takes back nothing that was sent, and every command is answered with a next state. -/

namespace Sys2Proof.Machine

/-- Whatever its effect, a command leaves the queue and what was sent before it. -/
theorem Effect.sendsOn {P : Prop} {s t : State} {c : Instr} (h : Effect P s s c t) : t.pending = s.pending ∧ s.out <+: t.out := by
  cases h with
  | started j _ ht => subst ht; exact ⟨rfl, List.prefix_refl _⟩
  | heldInStart _ ht => subst ht; exact ⟨rfl, List.prefix_refl _⟩
  | stored _ _ _ ht => exact ⟨ht.pending, ht.out⟩
  | kept ht => exact ⟨ht.pending, ht.out⟩

/-- Settles O5: a command takes the queue's rest as its own, and a microsecond meets an empty queue. -/
theorem stepTakesOneAndSendsOn : Obligations.StepTakesOneAndSendsOn := by
  intro s t ht
  unfold step at ht
  split at ht
  · next c rest hq =>
    obtain ⟨hpending, hout⟩ := (exec_effect (Keeps.refl (P := False) False.elim) ht).sendsOn
    exact ⟨by rw [hpending, hq]; rfl, hout⟩
  · next hq =>
    obtain rfl := next_inj ht
    exact ⟨by rw [tick_pending, hq]; rfl, List.prefix_refl _⟩

/-- A command that is taken as an immediate one is answered with a next state (R170). -/
theorem immediate_completes (tag : Tag) (barred : State → Bool) (k : State → State) (s : State) :
    ∃ t, immediate tag barred k s = .next t := ⟨_, rfl⟩

/-- Settles O6: every row answers next as it stands, and the three whose fields decide how the frame is taken do so either way. -/
theorem everyCommandCompletes : Obligations.EveryCommandCompletes := by
  intro c s
  cases c with
  | readAttribute tag a =>
    change ∃ t, execReadAttribute tag a s = .next t
    unfold execReadAttribute
    split <;> exact immediate_completes ..
  | writeAttribute tag a v =>
    change ∃ t, execWriteAttribute tag a v s = .next t
    unfold execWriteAttribute
    split <;> exact immediate_completes ..
  | setSetting tag name v =>
    change ∃ t, execSetSetting tag name v s = .next t
    cases name with
    | readAheadLimit => exact ⟨_, rfl⟩
    | _ => exact immediate_completes ..
  | _ => exact ⟨_, rfl⟩

end Sys2Proof.Machine
end

section
/-! SUPPORT. The bytes of frames, library records, sense records and replies (R165, R166, R173, R174, R178 to R180). -/

namespace Sys2Proof.Machine

section

/-! ## Numbers (section Layouts) -/

@[simp] theorem bytesOf_length (k n : Nat) : (bytesOf k n).length = k := by
  induction k with
  | zero => rfl
  | succ k ih => simp [bytesOf, ih]

/-- Read most significant byte first behind what was read before, the bytes of a number give it as far as they reach. -/
theorem bytesOf_foldl (k n a : Nat) :
    (bytesOf k n).foldl (fun a b => a * 256 + b.toNat) a = a * 256 ^ k + n % 256 ^ k := by
  induction k generalizing a with
  | zero => simp [bytesOf, Nat.mod_one]
  | succ k ih =>
    have hsplit : n % 256 ^ (k + 1) = 256 ^ k * (n / 256 ^ k % 256) + n % 256 ^ k := by
      rw [pow_succ, Nat.mod_mul, Nat.add_comm]
    simp only [bytesOf, List.foldl_cons, BitVec.toNat_ofNat, Nat.reducePow]
    rw [ih, hsplit, pow_succ]
    ring

/-! ## Frames and library records (R165, R166, R178) -/

variable {kind flags : Nat} {tag : Tag} {payload : List Byte}

theorem frameBytes_length : (frameBytes kind flags tag payload).length = 10 + payload.length := by
  simp only [frameBytes, List.length_append, List.length_cons, List.length_nil, bytesOf_length]
  omega

/-- Bytes followed by their check pass the framing test. -/
theorem checkHolds_append (body : List Byte) : checkHolds (body ++ bytesOf 4 (crc32 body).toNat) = true := by
  simp [checkHolds]

theorem byteSum_append (bs : List Byte) (b : Byte) : byteSum (bs ++ [b]) = byteSum bs + b := by
  simp [byteSum, List.foldl_append]

/-- The check byte brings the sum to 0. -/
theorem byteSum_withCheck (bs : List Byte) : byteSum (withCheck bs) = 0#8 := by
  rw [withCheck, byteSum_append, BitVec.add_right_neg]

theorem byteSum_libBytes (r : LibRecord) : byteSum (libBytes r) = 0#8 := by
  cases r with
  | status _ => exact byteSum_withCheck _
  | reply _ _ _ => exact byteSum_withCheck _

theorem libBytes_length (r : LibRecord) : (libBytes r).length = match r with
    | .status _ => 8
    | .reply _ _ _ => 11 := by
  cases r <;> simp [libBytes, withCheck]

/-! ## Sense records (R174) -/

/-- The five bytes of a sense record before its figures. -/
def senseHead (x : Sense) : List Byte :=
  [BitVec.ofNat 8 x.reason.outcomeCode, BitVec.ofNat 8 x.reason.code, BitVec.ofNat 8 (detailCode x.detail),
    BitVec.ofNat 8 (unitCode x.unit), BitVec.ofNat 8 (senseFlags x)]

theorem senseBytes_eq (x : Sense) : senseBytes x = senseHead x ++ (bytesOf 6 (x.info.getD Config.absentInformation)
    ++ (bytesOf 4 (x.dsn.getD Config.absentDsn) ++ bytesOf 6 (x.count.getD Config.absentCount))) := by
  simp [senseBytes, senseHead]

theorem senseBytes_length (x : Sense) : (senseBytes x).length = 21 := by simp [senseBytes_eq, senseHead]

theorem senseBytes_info {x : Sense} {n : Nat} (h : x.info = some n) : ((senseBytes x).drop 5).take 6 = bytesOf 6 n := by
  rw [senseBytes_eq, h, List.drop_left' (by simp [senseHead]), List.take_left' (bytesOf_length _ _), Option.getD_some]

theorem senseBytes_dsn {x : Sense} {n : Nat} (h : x.dsn = some n) : ((senseBytes x).drop 11).take 4 = bytesOf 4 n := by
  rw [senseBytes_eq, h, ← List.append_assoc, List.drop_left' (by simp [senseHead]), List.take_left' (bytesOf_length _ _),
    Option.getD_some]

theorem senseBytes_count {x : Sense} {n : Nat} (h : x.count = some n) : (senseBytes x).drop 15 = bytesOf 6 n := by
  rw [senseBytes_eq, h, ← List.append_assoc, ← List.append_assoc, List.drop_left' (by simp [senseHead]), Option.getD_some]

/-! ## Results (R173) -/

/-- The session counts stand first among the counters. -/
theorem counterBytes_begin (r : CounterReport) : ∃ rest, counterBytes r =
    (bytesOf 6 r.accepted ++ bytesOf 6 r.committed ++ bytesOf 6 r.discarded ++ bytesOf 6 r.held) ++ rest := by
  simp only [counterBytes, List.flatMap_cons, countBytes, List.append_assoc]
  exact ⟨_, rfl⟩

theorem counterBytes_take (r : CounterReport) : (counterBytes r).take 24 =
    bytesOf 6 r.accepted ++ bytesOf 6 r.committed ++ bytesOf 6 r.discarded ++ bytesOf 6 r.held := by
  obtain ⟨rest, hrest⟩ := counterBytes_begin r
  rw [hrest, List.take_left' (by simp)]

/-- The Position stands first in its report. -/
theorem positionReport_take (p : Nat) (wrap lpos : Option Nat) (ew : Bool) (last : Option ImmediateResult) :
    (resultBytes (.positionReport p wrap lpos ew last)).take 6 = bytesOf 6 p := by
  simp only [resultBytes, List.append_assoc]
  exact List.take_left' (bytesOf_length _ _)

end

/-- Settles O20: the check is that of the bytes before it, the sum is completed by its last byte, and each figure stands behind parts of
known length. -/
theorem repliesRecordsAndFramesHaveTheirBytes : Obligations.RepliesRecordsAndFramesHaveTheirBytes :=
  ⟨fun _ _ _ _ => ⟨checkHolds_append _, frameBytes_length⟩,
    fun r => ⟨byteSum_libBytes r, libBytes_length r⟩,
    fun x => ⟨senseBytes_length x, rfl, rfl, rfl, rfl, fun _ => senseBytes_info, fun _ => senseBytes_dsn, fun _ => senseBytes_count⟩,
    fun _ _ => rfl,
    fun _ _ => ⟨rfl, rfl, rfl, rfl, rfl⟩,
    positionReport_take,
    counterBytes_take,
    fun k n => ⟨bytesOf_length k n, (bytesOf_foldl k n 0).trans (by rw [Nat.zero_mul, Nat.zero_add])⟩⟩

end Sys2Proof.Machine
end

section
/-! SUPPORT. COMMAND frames in the order of their tests, the Medium Queue, and the reports that are answered at once (R105, R170, R171,
R183, R187, R188). -/

namespace Sys2Proof.Machine

section
variable {tag : Tag} {c : MedCmd} {s : State} {barred : State → Bool} {k : State → State}

/-! ## The tests of a COMMAND (R170, R183) -/

theorem commandIn_outstanding (h : s.dlp.tags.contains tag = true) :
    commandIn tag barred k s = reply tag (senseReply .tagInUse) s := if_pos h

theorem commandIn_barred (h : s.dlp.tags.contains tag = false) (hb : barred s = true) :
    commandIn tag barred k s = reply tag (senseReply .becomingReady) s := by
  rw [commandIn, h, hb, if_neg Bool.false_ne_true, if_pos rfl]

theorem commandIn_taken (h : s.dlp.tags.contains tag = false) (hb : barred s = false) : commandIn tag barred k s = k s := by
  rw [commandIn, h, hb, if_neg Bool.false_ne_true, if_neg Bool.false_ne_true]

theorem notServed_iff : notServed s = true ↔ s.frg.condition ≠ .ready ∧ s.frg.condition ≠ .faulted := by simp [notServed]

theorem served_of_condition (h : s.frg.condition = .ready ∨ s.frg.condition = .faulted) : notServed s = false := by
  rcases h with h | h <;> simp [notServed, h]

theorem resetBarred_iff : resetBarred s = true ↔ notServed s = true ∧ s.frg.resetWork = none := by simp [resetBarred]

/-! ## The Medium Queue (R171) -/

theorem enqueue_full (hl : s.dlp.link = .up) (h : 16 ≤ s.dlp.queue.length) :
    enqueue tag c s = emit (.reply tag (senseReply .queueFull)) s := (if_pos h).trans (reply_up hl)

theorem enqueue_joins (h : s.dlp.queue.length < 16) (hq : s.dlp.queue ≠ []) :
    enqueue tag c s = { s with dlp.queue := s.dlp.queue ++ [⟨tag, c⟩], dlp.tags := s.dlp.tags ++ [tag] } := by
  simp [enqueue, Nat.not_le.2 h, hq]

theorem enqueue_begins (hq : s.dlp.queue = []) :
    enqueue tag c s = beginCommand tag c { s with dlp.queue := [⟨tag, c⟩], dlp.tags := s.dlp.tags ++ [tag] } := by
  simp [enqueue, hq, beginHead]

/-! ## Reports (R170) -/

/-- An immediate command that meets no test is carried out on the drive that has heard it (R166, R170). -/
theorem immediate_taken (hl : s.dlp.link = .up) (ht : s.dlp.tags.contains tag = false) (hb : barred (heard s) = false) :
    immediate tag barred k s = .next (sendNotices (k (heard s))) := by
  rw [immediate, frameIn_up hl, commandIn_taken (by exact ht) hb]

/-- A report is one reply, whose figures a frame heard does not change. -/
theorem immediate_reports {r : State → Reply} (hl : s.dlp.link = .up) (ht : s.dlp.tags.contains tag = false)
    (hb : barred (heard s) = false) :
    immediate tag barred (fun u => reply tag (r u) u) s = .next (sendNotices (replied tag (r (heard s)) s)) :=
  (immediate_taken hl ht hb).trans (notifies (reply_heard hl _ _))

end

/-- Settles O21: the tests of `commandIn` in their order, and the three lengths of the queue that `enqueue` tells apart. -/
theorem commandsAreTakenInOrder : Obligations.CommandsAreTakenInOrder := by
  refine ⟨fun tag barred k s hl => ?_, fun tag c s => ⟨enqueue_full, enqueue_joins, enqueue_begins⟩⟩
  rw [frameIn_up hl]
  exact ⟨fun ht => (commandIn_outstanding (by exact ht)).trans (reply_heard hl _ _),
    fun ht hb => (commandIn_barred (by exact ht) hb).trans (reply_heard hl _ _),
    fun ht hb => commandIn_taken (by exact ht) hb, notServed_iff, resetBarred_iff⟩

/-- Settles O22: each is an immediate command whose reply gives the figures of the state. -/
theorem reportsAreAnsweredAtOnce : Obligations.ReportsAreAnsweredAtOnce := by
  intro tag s hl ht
  refine ⟨immediate_reports hl ht rfl, immediate_reports hl ht rfl, immediate_reports hl ht rfl, fun hcondition => ?_⟩
  have hserved : notServed (heard s) = false := served_of_condition hcondition
  exact ⟨immediate_reports hl ht hserved, immediate_reports hl ht hserved, immediate_reports hl ht hserved⟩

end Sys2Proof.Machine
end

section
/-! SUPPORT. The link state: the line's signal, the Hello exchange and the Link Reset (R51, R149, R167, R168, R172, R177). -/

namespace Sys2Proof.Machine

section
variable {s : State}

/-! ## The Hello exchange (R51, R149, R167) -/

/-- The drive's HELLO, the credits of the empty staging buffers, and the grace timer stopped. -/
def helloExchanged (agreed : Nat) (s : State) : State := { s with
  dlp.agreed := agreed
  dlp.link := .up
  dlp.helloTimer := 0
  dlp.creditsOut := 32 - s.dbf.staging.length
  cah.grace := none
  out := s.out ++ [.hello 65536 agreed, .credit (32 - s.dbf.staging.length - s.dlp.creditsOut)] }

/-- A move to UP with an empty staging buffer that no credit covers, and no question to notice. -/
theorem comeUp_exchanges (agreed : Nat) (hroom : s.dlp.creditsOut + s.dbf.staging.length < 32) (hq : s.cah.question = none) :
    comeUp (grantCredits (sayHello agreed s)) = helloExchanged agreed s := by
  have hcredits : s.dlp.creditsOut + (32 - s.dbf.staging.length - s.dlp.creditsOut) = 32 - s.dbf.staging.length := by omega
  have hsome : 0 < 32 - s.dbf.staging.length - s.dlp.creditsOut := by omega
  simp [comeUp, noticeQuestion, grantCredits, sayHello, emit, emptyBuffers, helloExchanged, hq, hcredits, hsome]

theorem exec_lineSignalAppears_down (hc : s.frg.condition ≠ .starting) (hl : s.dlp.link = .down) :
    exec .lineSignalAppears s = .next { s with dlp.signal := true, dlp.link := .awaitingHello, dlp.helloTimer := 0 } :=
  congrArg _ (if_neg (by simp [hc, hl]))

theorem exec_lineSignalAppears_noted (h : s.frg.condition = .starting ∨ s.dlp.link ≠ .down) :
    exec .lineSignalAppears s = .next { s with dlp.signal := true } := congrArg _ (if_pos h)

theorem exec_hello_down (m : BitVec 24) (hl : s.dlp.link = .down) : exec (.hello m) s = .next s := by
  change execHello m s = _
  rw [execHello, hl]

theorem exec_hello_awaiting (m : BitVec 24) (hl : s.dlp.link = .awaitingHello) :
    exec (.hello m) s = .next (sendNotices (comeUp (grantCredits (sayHello (agreedSize m.toNat) (heard s))))) := by
  change execHello m s = _
  rw [execHello, hl]
  rfl

theorem exec_hello_up (m : BitVec 24) (hl : s.dlp.link = .up) : exec (.hello m) s = .next (finish (comeUp (grantCredits
    (sayHello (agreedSize m.toNat) { linkReset (heard s) with dlp.link := .awaitingHello })))) := by
  change execHello m s = _
  rw [execHello, hl]
  rfl

theorem exec_helloTimeout_awaiting (hl : s.dlp.link = .awaitingHello) :
    exec .helloTimeout s = .next (sendNotices (comeUp (grantCredits (sayHello s.dlp.payloadDefault s)))) := congrArg _ (if_pos hl)

theorem exec_helloTimeout_elsewhere (hl : s.dlp.link ≠ .awaitingHello) : exec .helloTimeout s = .next s := congrArg _ (if_neg hl)

/-! ## The Link Reset (R168) -/

/-- What a Link Reset makes of the port, the commands of the Medium Queue apart. -/
def portCleared (s : State) : State := { s with
  dlp.tags := []
  dlp.creditsOut := 0
  dlp.receiveCredits := 0
  events := withMask s.pst.stored.eventMask s.events
  pst.writes := s.pst.writes.map StoreWrite.untag
  cah.question := s.cah.question.map (fun q => { q with tag := none })
  cah.grace := if s.cah.holder = .link then some 0 else s.cah.grace }

/-- The command at the head ends unanswered, those behind it with it. -/
def queueEnded (s : State) : State :=
  let u := { s with dlp.queue := s.dlp.queue.take 1 }
  if u.dlp.queue.isEmpty then u else linkAbortHead u

theorem linkReset_eq (s : State) : linkReset s = portCleared (queueEnded s) := rfl

theorem queueEnded_empty (hq : s.dlp.queue = []) : queueEnded s = s := by
  have htake : s.dlp.queue.take 1 = s.dlp.queue := by rw [hq]; rfl
  simp only [queueEnded, htake]
  exact if_pos (by rw [hq]; rfl)

/-- The phases in which the head has not begun or waits, so that an Abort ends it where it stands. -/
def endsAtOnce (p : HeadPhase) : Prop := p = .notBegun ∨ p = .waitMedia ∨ p = .waitCommit ∨ p = .waitSync ∨ p = .waitStop

/-- An Abort in such a phase ends the command and touches nothing else of its work (R172). -/
theorem abortHead_waiting (ha : s.dlp.run.aborting = false) (hp : endsAtOnce s.dlp.run.phase) : abortHead s = abortNow s := by
  rcases hp with hp | hp | hp | hp | hp <;> simp [abortHead, runsOn, ha, hp]

/-- So does a Link Reset, under which the command is mute (R168). -/
theorem linkAbortHead_waiting (ha : s.dlp.run.aborting = false) (hp : endsAtOnce s.dlp.run.phase) :
    linkAbortHead s = abortNow { s with dlp.run.mute := true } := by
  have hrest := abortHead_waiting (s := { s with dlp.run.mute := true }) ha hp
  rcases hp with hp | hp | hp | hp | hp <;> simpa only [linkAbortHead, hp] using hrest

/-- A mute command alone in the queue leaves it without a reply (R168). -/
theorem abortNow_mute {q : QEntry} (hq : s.dlp.queue = [q]) (hm : s.dlp.run.mute = true) (ha : s.dlp.run.answered = false) :
    abortNow s = { s with dlp.queue := [], dlp.run := {} } := by
  simp [abortNow, endHead, finishHead, hq, hm, ha]

theorem queueEnded_waiting (ha : s.dlp.run.aborting = false) (hr : s.dlp.run.answered = false) (hp : endsAtOnce s.dlp.run.phase)
    (hq : s.dlp.queue ≠ []) : queueEnded s = { s with dlp.queue := [], dlp.run := {} } := by
  obtain ⟨q, rest, hcons⟩ := List.exists_cons_of_ne_nil hq
  simp only [queueEnded, hcons, List.take_succ_cons, List.take_zero]
  rw [if_neg (by simp), linkAbortHead_waiting (by exact ha) (by exact hp), abortNow_mute (q := q) rfl rfl (by exact hr)]

theorem exec_lineSignalLost_down (hl : s.dlp.link = .down) : exec .lineSignalLost s = .next { s with dlp.signal := false } :=
  congrArg _ (if_pos hl)

theorem exec_lineSignalLost (hl : s.dlp.link ≠ .down) :
    exec .lineSignalLost s = .next (finish { linkReset { s with dlp.signal := false } with dlp.link := .down }) := by
  change execLineSignalLost s = _
  rw [execLineSignalLost, if_neg hl]

end

/-- Settles O17: the signal's two cases, and a move to UP by the host's HELLO or by the timeout as `helloExchanged`. -/
theorem helloExchangeBringsTheLinkUp : Obligations.HelloExchangeBringsTheLinkUp := by
  refine ⟨fun s => ⟨exec_lineSignalAppears_down, exec_lineSignalAppears_noted⟩, fun m s hl hroom hq => ?hello,
    fun s hl hroom hq => ?timeout, fun m s => ⟨exec_hello_down m, exec_helloTimeout_elsewhere⟩⟩
  case hello => exact (exec_hello_awaiting m hl).trans (notifies (comeUp_exchanges (s := heard s) _ hroom hq))
  case timeout => exact (exec_helloTimeout_awaiting hl).trans (notifies (comeUp_exchanges _ hroom hq))

/-- Settles O18: the port is `portCleared` once the queue has ended, and a HELLO on a link that is UP then exchanges HELLOs afresh. -/
theorem linkResetClearsThePort : Obligations.LinkResetClearsThePort := by
  refine ⟨fun s hempty => ⟨fun hl => ?lost, exec_lineSignalLost_down, fun m hl hroom hq => ?hello⟩,
    fun s hl ha hr hp hqueue => ?queued⟩
  case lost =>
    rw [exec_lineSignalLost hl, linkReset_eq, queueEnded_empty (by exact hempty)]
    rfl
  case hello =>
    rw [exec_hello_up m hl, linkReset_eq, queueEnded_empty (by exact hempty),
      comeUp_exchanges _ (by simpa [portCleared] using hroom) (by simp [portCleared, hq])]
    rfl
  case queued =>
    rw [exec_lineSignalLost hl, linkReset_eq, queueEnded_waiting (by exact ha) (by exact hr) (by exact hp) (by exact hqueue)]
    rfl

end Sys2Proof.Machine
end

section
/-! SUPPORT. CRC Run and Link Errors: what an aborted command leaves of them, the bad frame and the rejected one, and the eighth bad check
in a row (R165, R166, R168, R187). -/

namespace Sys2Proof.Machine

/-- From `s` to `t` the port counts no bad frame (R166). -/
@[simp] abbrev KeepsLinkCounts (s t : State) : Prop := t.dlp.crcRun = s.dlp.crcRun ∧ t.dlp.linkErrors = s.dlp.linkErrors

section
variable (s : State)

/-! ## The end of the command at the head -/

@[simp] theorem finishHead_linkCounts (r : Reply) : KeepsLinkCounts s (finishHead r s) := by
  unfold finishHead
  split
  · simp
  · dsimp only
    repeat' split
    all_goals simp

@[simp] theorem endHead_linkCounts (o : OutcomeBlock) : KeepsLinkCounts s (endHead o s) := by
  unfold endHead
  split <;> simp

@[simp] theorem abortNow_linkCounts : KeepsLinkCounts s (abortNow s) := endHead_linkCounts s _

@[simp] theorem endThread_linkCounts (r : Reply) : KeepsLinkCounts s (endThread r s) := by
  unfold endThread
  split <;> simp

@[simp] theorem endUnthread_linkCounts (r : Reply) : KeepsLinkCounts s (endUnthread r s) := by
  unfold endUnthread
  dsimp only
  split <;> simp

/-! ## The engine, and what is dropped with the command (R34, R35) -/

@[simp] theorem openDataSet_linkCounts : KeepsLinkCounts s (openDataSet s) := by
  unfold openDataSet
  split <;> simp

@[simp] theorem closeDataSet_linkCounts : KeepsLinkCounts s (closeDataSet s) := by
  unfold closeDataSet
  repeat' split
  all_goals simp

@[simp] theorem placeFilemark_linkCounts : KeepsLinkCounts s (placeFilemark s) := by
  unfold placeFilemark dropIntake addEntry
  dsimp only
  repeat' split
  all_goals simp

@[simp] theorem drainFrom_linkCounts (n : Nat) : KeepsLinkCounts s (drainFrom n s) := by
  induction n generalizing s with
  | zero => exact ⟨rfl, rfl⟩
  | succ n ih =>
    unfold drainFrom
    dsimp only
    repeat' split
    all_goals simp [ih]

@[simp] theorem settleEngine_linkCounts : KeepsLinkCounts s (settleEngine s) := by
  unfold settleEngine
  dsimp only
  repeat' split
  all_goals simp

@[simp] theorem dropRecords_dlp (tag : Tag) : (dropRecords tag s).dlp = s.dlp := by
  unfold dropRecords dropEmptyOpen
  dsimp only
  repeat' split
  all_goals rfl

@[simp] theorem dropPartial_linkCounts (tag : Tag) : KeepsLinkCounts s (dropPartial tag s) := by simp [dropPartial]

@[simp] theorem passOverHead_linkCounts : KeepsLinkCounts s (passOverHead s) := dropPartial_linkCounts s _

@[simp] theorem dropCollecting_dlp : (dropCollecting s).dlp = s.dlp := by simp [dropCollecting, stopCollecting]

@[simp] theorem dropReading_dlp : (dropReading s).dlp = s.dlp := by simp [dropReading]

@[simp] theorem dropLinkOperation_dlp : (dropLinkOperation s).dlp = s.dlp := by
  unfold dropLinkOperation
  repeat' split
  all_goals rfl

@[simp] theorem stopForAbort_dlp : (stopForAbort s).dlp = s.dlp := by
  unfold stopForAbort
  repeat' split
  all_goals simp

/-! ## The Thread Stack emptied or popped (R138, R142) -/

@[simp] theorem settleQuestion_linkCounts (grant : Bool) : KeepsLinkCounts s (settleQuestion grant s) := by
  cases hq : s.cah.question with
  | none => simp [settleQuestion_none grant hq]
  | some q =>
    obtain ⟨-, -, -, hdlp, -⟩ := settleQuestion_asked_frame grant hq
    exact ⟨by rw [hdlp], by rw [hdlp]⟩

@[simp] theorem recoverCustody_linkCounts : KeepsLinkCounts s (recoverCustody s) := by
  unfold recoverCustody
  repeat' split
  all_goals simp [(passCustody_frame .library s).2.1]

@[simp] theorem stackEmptied_linkCounts : KeepsLinkCounts s (stackEmptied s) := by
  unfold stackEmptied
  dsimp only
  repeat' split
  all_goals simp [storeRetained, setConditionCap, beginEject]

@[simp] theorem unwindStack_linkCounts (u : Unwind) : KeepsLinkCounts s (unwindStack u s) := by
  unfold unwindStack beginPop
  dsimp only
  repeat' split
  all_goals simp

@[simp] theorem abortThread_linkCounts : KeepsLinkCounts s (abortThread s) := by
  unfold abortThread stopAcquire
  repeat' split
  all_goals simp

/-! ## The Abort of the command at the head (R168, R172) -/

@[simp] theorem abortUnthread_linkCounts : KeepsLinkCounts s (abortUnthread s) := by
  unfold abortUnthread abortRewind
  repeat' split
  all_goals simp

@[simp] theorem abortWait_linkCounts : KeepsLinkCounts s (abortWait s) := by
  unfold abortWait
  split <;> simp

@[simp] theorem abortRebuild_linkCounts : KeepsLinkCounts s (abortRebuild s) := by simp [abortRebuild, dropRebuild]

@[simp] theorem abortAppend_linkCounts : KeepsLinkCounts s (abortAppend s) := by simp [abortAppend, endSearch]

@[simp] theorem abortFilemarks_linkCounts : KeepsLinkCounts s (abortFilemarks s) := by simp [abortFilemarks]

@[simp] theorem abortRead_linkCounts : KeepsLinkCounts s (abortRead s) := by
  unfold abortRead endSearch
  dsimp only
  split <;> simp

@[simp] theorem abortSearch_linkCounts (p : Nat) : KeepsLinkCounts s (abortSearch p s) := by simp [abortSearch, endSearch]

@[simp] theorem abortRewindCmd_linkCounts : KeepsLinkCounts s (abortRewindCmd s) := by simp [abortRewindCmd]

/-- Each phase ends by one of the operations above, or notes the Abort. -/
@[simp] theorem abortHead_linkCounts : KeepsLinkCounts s (abortHead s) := by
  unfold abortHead
  repeat' split
  all_goals simp

@[simp] theorem linkAbortHead_linkCounts : KeepsLinkCounts s (linkAbortHead s) := by
  unfold linkAbortHead endSearch
  dsimp only
  repeat' split
  all_goals simp

@[simp] theorem queueEnded_linkCounts : KeepsLinkCounts s (queueEnded s) := by
  unfold queueEnded
  dsimp only
  split <;> simp

end

section
variable {s : State}

/-! ## Frames that are discarded (R165, R166) -/

theorem exec_badCheckFrame_down (hl : s.dlp.link = .down) : exec .badCheckFrame s = .next s := congrArg _ (if_pos hl)

theorem exec_frameRejected_down (hl : s.dlp.link = .down) : exec .frameRejected s = .next s := congrArg _ (if_pos hl)

theorem exec_frameRejected (hl : s.dlp.link ≠ .down) :
    exec .frameRejected s = .next (sendNotices (linkError (heard s))) := congrArg _ (if_neg hl)

theorem exec_badCheckFrame_counted (hl : s.dlp.link ≠ .down) (h : s.dlp.crcRun + 1 < 8) :
    exec .badCheckFrame s = .next (sendNotices { linkError s with dlp.crcRun := s.dlp.crcRun + 1 }) := by
  change execBadCheckFrame s = _
  rw [execBadCheckFrame, if_neg hl]
  exact congrArg _ (if_pos h)

theorem exec_badCheckFrame_eighth (hl : s.dlp.link ≠ .down) (h : s.dlp.crcRun + 1 = 8) :
    exec .badCheckFrame s = .next (finish (crcRunFull (linkError s))) := by
  have hfull : ¬ s.dlp.crcRun + 1 < 8 := by omega
  change execBadCheckFrame s = _
  rw [execBadCheckFrame, if_neg hl]
  exact congrArg _ (if_neg hfull)

/-! ## The eighth bad check in a row (R166, R168, R187) -/

/-- The LINK fault reported, with CRC Run begun afresh. -/
def crcFault (s : State) : State := reportFault .link .crcRun { s with dlp.crcRun := 0 }

/-- The link then starts again in AWAITING HELLO, reset. -/
theorem crcRunFull_eq (s : State) : crcRunFull s =
    { portCleared (queueEnded (crcFault s)) with dlp.link := .awaitingHello, dlp.helloTimer := 0 } := rfl

theorem crcFault_dlp (s : State) : (crcFault s).dlp = { s.dlp with crcRun := 0 } := by simp [crcFault]

theorem crcRunFull_counts (s : State) : (crcRunFull s).dlp.crcRun = 0 ∧ (crcRunFull s).dlp.linkErrors = s.dlp.linkErrors := by
  obtain ⟨hrun, herrors⟩ := queueEnded_linkCounts (crcFault s)
  rw [crcFault_dlp] at hrun herrors
  exact ⟨hrun, herrors⟩

/-- A fault of a unit that does not freeze the drive leaves the drive condition (R187). -/
theorem reportFault_condition {u : FaultUnit} (k : FaultCause) (hu : u.freezes = false) :
    (reportFault u k s).frg.condition = s.frg.condition := by
  unfold reportFault enterRecord copyRecord
  dsimp only
  rw [if_neg (by simp [hu])]
  split <;> rfl

theorem crcFault_current (h : s.frg.current = none) :
    (crcFault s).frg.current = some [⟨.link, .crcRun, s.timeBase, s.frg.condition, s.moc.motion, s.cah.state⟩] := by
  rw [crcFault, reportFault_warning _ rfl (by exact h)]
  rfl

/-- With no command to end, the reset leaves the Fault Register as the fault has made it. -/
theorem crcRunFull_frg (hq : s.dlp.queue = []) : (crcRunFull s).frg = (crcFault s).frg := by
  rw [crcRunFull_eq, queueEnded_empty (by rw [crcFault_dlp]; exact hq)]
  rfl

end

/-- Settles O19: the eighth bad check ends in `portCleared`, and neither the fault nor the command's end counts a bad frame. -/
theorem badChecksAreCounted : Obligations.BadChecksAreCounted := by
  intro s
  refine ⟨fun hl => ⟨exec_badCheckFrame_down hl, exec_frameRejected_down hl⟩, fun hl => ⟨exec_badCheckFrame_counted hl,
    exec_frameRejected hl, fun h8 => ⟨exec_badCheckFrame_eighth hl h8, rfl, ?crcRun, rfl, rfl, rfl, rfl, ?linkErrors,
      fun hq => ?condition, fun hq hcurrent => ?current⟩⟩⟩
  case crcRun => exact (crcRunFull_counts _).1
  case linkErrors => exact (crcRunFull_counts _).2
  case condition =>
    rw [crcRunFull_frg (by exact hq)]
    exact reportFault_condition .crcRun rfl
  case current =>
    rw [crcRunFull_frg (by exact hq)]
    exact crcFault_current (by exact hcurrent)

end Sys2Proof.Machine
end

section
/-! SUPPORT. The fault record: its lowest priority, the entry that gives way to a new one, and the suspect unit (R187). -/

namespace Sys2Proof.Machine

/-! ## The lowest priority -/

theorem lowestPriority_cons (e : FaultEntry) (l : List FaultEntry) :
    lowestPriority (e :: l) = max e.unit.priority (lowestPriority l) := by
  rw [lowestPriority, List.map_cons, List.foldl_cons, max_comm, List.foldl_assoc]
  rfl

/-- No entry of a record is below its lowest priority. -/
theorem priority_le_lowestPriority {e : FaultEntry} {l : List FaultEntry} (h : e ∈ l) : e.unit.priority ≤ lowestPriority l := by
  induction l with
  | nil => cases h
  | cons a l ih =>
    rw [lowestPriority_cons]
    rcases List.mem_cons.1 h with rfl | hl
    · exact le_max_left _ _
    · exact (ih hl).trans (le_max_right _ _)

/-- A lowest priority other than the highest of all is that of an entry. -/
theorem exists_priority_eq_lowestPriority {l : List FaultEntry} (h : 0 < lowestPriority l) :
    ∃ e ∈ l, e.unit.priority = lowestPriority l := by
  induction l with
  | nil => cases h
  | cons a l ih =>
    rw [lowestPriority_cons] at h ⊢
    rcases le_total (lowestPriority l) a.unit.priority with ha | ha
    · exact ⟨a, List.mem_cons_self, (max_eq_left ha).symm⟩
    · rw [max_eq_right ha] at h ⊢
      obtain ⟨e, hmem, he⟩ := ih h
      exact ⟨e, List.mem_cons_of_mem _ hmem, he⟩

/-! ## The entry that gives way -/

/-- The first entry with the priority, which is the oldest of them, leaves the list, and the new one is its last. -/
theorem replaceLowest_eq (x : FaultEntry) {low : Nat} {l : List FaultEntry} (h : ∃ e ∈ l, e.unit.priority = low) :
    ∃ (before after : List FaultEntry) (e : FaultEntry), l = before ++ e :: after ∧ e.unit.priority = low
      ∧ (∀ y ∈ before, y.unit.priority ≠ low) ∧ replaceLowest x low l = before ++ after ++ [x] := by
  induction l with
  | nil => simp at h
  | cons a l ih =>
    by_cases ha : a.unit.priority = low
    · exact ⟨[], l, a, rfl, ha, by simp, if_pos ha⟩
    · obtain ⟨before, after, e, rfl, he, hbefore, hreplaced⟩ := ih (by simpa [ha] using h)
      refine ⟨a :: before, after, e, rfl, he, List.forall_mem_cons.2 ⟨ha, hbefore⟩, ?_⟩
      rw [replaceLowest, if_neg ha, hreplaced]
      rfl

/-! ## A fault is entered -/

theorem enterFault_room (x : FaultEntry) {l : List FaultEntry} (h : l.length < 4) : enterFault x l = some (l ++ [x]) := if_pos h

theorem enterFault_full {x : FaultEntry} {l : List FaultEntry} (hl : 4 ≤ l.length) (h : x.unit.priority < lowestPriority l) :
    enterFault x l = some (replaceLowest x (lowestPriority l) l) := by
  rw [enterFault, if_neg (Nat.not_lt.2 hl), if_pos h]

theorem enterFault_refused {x : FaultEntry} {l : List FaultEntry} (hl : 4 ≤ l.length) (h : lowestPriority l ≤ x.unit.priority) :
    enterFault x l = none := by
  rw [enterFault, if_neg (Nat.not_lt.2 hl), if_neg (Nat.not_lt.2 h)]

/-! ## The suspect unit -/

theorem suspectOf_eq_none {l : List FaultEntry} (h : suspectOf l = none) : l = [] := by
  cases l with
  | nil => rfl
  | cons a l =>
    rw [suspectOf] at h
    repeat' split at h
    all_goals cases h

/-- The suspect of a record with one more entry at its head is the unit of that entry, unless a later one outranks it. -/
theorem suspectOf_cons {a : FaultEntry} {l : List FaultEntry} {u : FaultUnit} (h : suspectOf (a :: l) = some u) :
    (u = a.unit ∧ ∀ v, suspectOf l = some v → a.unit.priority ≤ v.priority)
      ∨ (suspectOf l = some u ∧ u.priority < a.unit.priority) := by
  rw [suspectOf] at h
  split at h
  next hnone =>
    cases h
    exact .inl ⟨rfl, by simp [hnone]⟩
  next v hv =>
    split at h
    next hle =>
      cases h
      exact .inl ⟨rfl, by simpa [hv] using hle⟩
    next hgt =>
      cases h
      exact .inr ⟨hv, Nat.lt_of_not_le hgt⟩

/-- The suspect is the unit of an entry, and no entry outranks it. -/
theorem suspectOf_highest {l : List FaultEntry} {u : FaultUnit} (h : suspectOf l = some u) :
    (∃ e ∈ l, e.unit = u) ∧ ∀ e ∈ l, u.priority ≤ e.unit.priority := by
  induction l generalizing u with
  | nil => cases h
  | cons a l ih =>
    rw [List.exists_mem_cons_iff, List.forall_mem_cons]
    rcases suspectOf_cons h with ⟨rfl, hfirst⟩ | ⟨hl, hlt⟩
    · refine ⟨.inl rfl, le_rfl, fun e he => ?_⟩
      cases hs : suspectOf l with
      | none => simp [suspectOf_eq_none hs] at he
      | some v => exact (hfirst v hs).trans ((ih hs).2 e he)
    · obtain ⟨hmem, hleast⟩ := ih hl
      exact ⟨.inr hmem, hlt.le, hleast⟩

/-- Settles O12: the branches of `enterFault`, with the oldest entry of the lowest priority named, and the suspect by induction on the
record. -/
theorem faultEntersTheRecordByPriority : Obligations.FaultEntersTheRecordByPriority := by
  intro x l
  refine ⟨enterFault_room x, fun hl h => ?full, enterFault_refused, fun e => priority_le_lowestPriority, fun u => suspectOf_highest⟩
  case full =>
    obtain ⟨before, after, e, hsplit, he, hbefore, hreplaced⟩ :=
      replaceLowest_eq x (exists_priority_eq_lowestPriority (Nat.zero_lt_of_lt h))
    exact ⟨before, after, e, hsplit, he, hbefore, by rw [enterFault_full hl h, hreplaced]⟩

end Sys2Proof.Machine
end

section
/-! SUPPORT. Custody at a Drive Reset that finds the Thread Stack of a recovery empty (R146, R183, R184). -/

namespace Sys2Proof.Machine

/-- READY while a cartridge in the custody of the Data Link is unthreaded by a recovery, with no stage left on the Thread Stack. -/
def recoversUnstacked : State := { linkUp with
  cah.state := .unthreading
  cah.recovering := true
  cah.holder := .link }

/-- The resumed recovery has no stage to pop, so it ends in the Drive Reset itself, and gives custody to the Library Port (R146, R184). -/
theorem driveReset_recoversUnstacked : recoversUnstacked.cah.holder = .link
    ∧ (driveReset (replied 1 goodReply recoversUnstacked)).cah.holder = .library := by decide

/-- Refutes O11: a Drive Reset taken in `recoversUnstacked` does not keep custody. A run of the drive ends a recovery in the step that
empties its Thread Stack, but the statement speaks of every state in READY. -/
theorem not_driveResetReturnsTheDriveToReady : ¬ Obligations.DriveResetReturnsTheDriveToReady := by
  intro h
  obtain ⟨hEmpty, -⟩ := h
  obtain ⟨hReady, -⟩ := hEmpty 1 recoversUnstacked rfl rfl rfl
  obtain ⟨-, -, -, -, -, -, -, -, -, -, -, hHolder, -⟩ := hReady (by decide)
  obtain ⟨hLink, hLibrary⟩ := driveReset_recoversUnstacked
  rw [hLibrary, hLink] at hHolder
  cases hHolder

end Sys2Proof.Machine
end

section
/-! SUPPORT. A step with a command in the queue (00_scope.md). -/

namespace Sys2Proof.Machine

/-- Settles O1: the queue is not empty, so `step` takes its branch that runs the front command on the rest. -/
theorem stepRunsFrontCommand : Obligations.StepRunsFrontCommand := by
  intro c rest s hp
  unfold step
  rw [hp]

end Sys2Proof.Machine
end
